-- ==== Sys2Proof/Word.lean ====
section
/-! DEFINITION. The words, bytes and byte strings of the SM3C block, and the tuple of eight words that both
register files `V` and `R` are (spec/00_scope.md R7, R9, R11). -/

namespace Sys2Proof

/-- A word: an unsigned 32-bit integer, bits numbered 31 down to 0 (R7). -/
abbrev Word := BitVec 32

/-- A byte: an unsigned integer 0..255 (R7). -/
abbrev Byte := BitVec 8

/-- A byte string, `S[0]` first (R9). -/
abbrev Bytes := List Byte

/-- A tuple of eight words under D00's letter names: element 0 is `a`, element 7 is `h` (R11). The register
files `V[0..7]` and `R[0..7]` are two such tuples. -/
@[ext] structure Words8 where
  a : Word
  b : Word
  c : Word
  d : Word
  e : Word
  f : Word
  g : Word
  h : Word
  deriving DecidableEq, Repr

/-- Addition modulo 2^32, the only arithmetic on words: no carry or overflow leaves it (R8, R90). -/
def add32 (x y : Word) : Word := x + y

end Sys2Proof
end

