-- ==== Sys2Proof/Syntax.lean ====
section
/-! DEFINITION. The eleven commands of the opcode map (spec/30_encoding.md R72; spec/opcode_table.json), one
constructor per row. -/

namespace Sys2Proof

/-- A command of the block. `ROUND` alone has an operand: the 7-bit count `N` of format N (R70, R71). Every other
operand is implicit (the descriptor registers and the internal register files). -/
inductive Instr where
  /-- `NOP`, opcode 0x00 (R201). -/
  | nop
  /-- `INIT`, opcode 0x01 (R202). -/
  | init
  /-- `CLEAR`, opcode 0x02 (R203). -/
  | clear
  /-- `PADBLK`, opcode 0x10 (R116). -/
  | padblk
  /-- `EXPAND`, opcode 0x11 (R134). -/
  | expand
  /-- `LDREG`, opcode 0x12 (R144). -/
  | ldreg
  /-- `ROUND N`, opcode 0x13 (R145); `n` is bits 6:0 of the command word. -/
  | round (n : BitVec 7)
  /-- `FEEDFWD`, opcode 0x14 (R160). -/
  | feedfwd
  /-- `COMPRESS`, opcode 0x15 (R146). -/
  | compress
  /-- `DIGEST`, opcode 0x20 (R167). -/
  | digest
  /-- `HMAC`, opcode 0x21 (R187). -/
  | hmac
  deriving DecidableEq, Repr

end Sys2Proof
end

