-- ==== Sys2Proof/WellFormed.lean ====
section
/-! DEFINITION. Which terms of `Instr` are commands of the block: the count of `ROUND` is 1..64
(spec/30_encoding.md R71, R72). -/

namespace Sys2Proof

/-- `ROUND N` is a command only for `1 <= N <= 64` (R71); every other constructor is one as it stands. -/
abbrev Instr.WellFormed : Instr → Prop
  | .nop => True
  | .init => True
  | .clear => True
  | .padblk => True
  | .expand => True
  | .ldreg => True
  | .round n => 1 ≤ n.toNat ∧ n.toNat ≤ 64
  | .feedfwd => True
  | .compress => True
  | .digest => True
  | .hmac => True

/-- The same check as a Bool, for the smoke tests. -/
def Instr.wellFormed : Instr → Bool
  | .nop => true
  | .init => true
  | .clear => true
  | .padblk => true
  | .expand => true
  | .ldreg => true
  | .round n => decide (1 ≤ n.toNat) && decide (n.toNat ≤ 64)
  | .feedfwd => true
  | .compress => true
  | .digest => true
  | .hmac => true

theorem Instr.wellFormed_iff (i : Instr) : i.wellFormed = true ↔ i.WellFormed := by
  cases i <;> simp [Instr.wellFormed, Instr.WellFormed]

end Sys2Proof
end

