-- ==== Sys2Proof/Decode.lean ====
section
/-! DEFINITION. The decoder, total on all 32-bit words, its rejections by name, the encoder, and the host's
view of the decoder on opcode-table rows (spec/30_encoding.md R70 to R74; spec/opcode_table.json). -/

namespace Sys2Proof

/-- Why a word is no command: the illegal words of R74, each class under its own name. All of them are the one
answer `Illegal` of R73 and raise the one fault `E_ILL` (R221). -/
inductive Illegal where
  /-- R74 (a): an `OPC` outside the opcode map. -/
  | unknownOpcode
  /-- R74 (b) and (c): a must-be-zero bit is set (bits 23:0 in format Z, bits 23:7 in format N). -/
  | reservedBits
  /-- R74 (c): `ROUND` with `N = 0`. -/
  | roundCountZero
  /-- R74 (c): `ROUND` with `N >= 65`. -/
  | roundCountAbove64
  deriving DecidableEq, Repr

/-- The opcode field, bits 31:24 (R70). -/
def opcField (cw : Word) : BitVec 8 := cw.extractLsb' 24 8

/-- Bits 23:0, which format Z wants zero (R70). -/
def zeroFieldZ (cw : Word) : BitVec 24 := cw.extractLsb' 0 24

/-- Bits 23:7, which format N wants zero (R70). -/
def zeroFieldN (cw : Word) : BitVec 17 := cw.extractLsb' 7 17

/-- The count field of format N, bits 6:0 (R70, R71). -/
def countField (cw : Word) : BitVec 7 := cw.extractLsb' 0 7

/-- The format Z rows of the opcode map, by opcode (R72). -/
def decodeOpcodeZ (opc : BitVec 8) : Option Instr :=
  if opc = 0x00 then some .nop
  else if opc = 0x01 then some .init
  else if opc = 0x02 then some .clear
  else if opc = 0x10 then some .padblk
  else if opc = 0x11 then some .expand
  else if opc = 0x12 then some .ldreg
  else if opc = 0x14 then some .feedfwd
  else if opc = 0x15 then some .compress
  else if opc = 0x20 then some .digest
  else if opc = 0x21 then some .hmac
  else none

/-- The format N row: `ROUND N` (R71, R72, R74 (c)). -/
def decodeRound (cw : Word) : Except Illegal Instr :=
  if zeroFieldN cw ≠ 0 then .error .reservedBits
  else if countField cw = 0 then .error .roundCountZero
  else if 64 < (countField cw).toNat then .error .roundCountAbove64
  else .ok (.round (countField cw))

/-- The decoder, a total function of the word alone (R73). -/
def decode (cw : Word) : Except Illegal Instr :=
  if opcField cw = 0x13 then decodeRound cw
  else
    match decodeOpcodeZ (opcField cw) with
    | none => .error .unknownOpcode
    | some i => if zeroFieldZ cw = 0 then .ok i else .error .reservedBits

/-- The opcode of a command (R72). -/
def opcodeOf : Instr → BitVec 8
  | .nop => 0x00
  | .init => 0x01
  | .clear => 0x02
  | .padblk => 0x10
  | .expand => 0x11
  | .ldreg => 0x12
  | .round _ => 0x13
  | .feedfwd => 0x14
  | .compress => 0x15
  | .digest => 0x20
  | .hmac => 0x21

/-- A format Z word: the opcode in bits 31:24, bits 23:0 zero (R70). -/
def formatZ (opc : BitVec 8) : Word := opc.setWidth 32 <<< 24

/-- A format N word: the opcode in bits 31:24, bits 23:7 zero, the count in bits 6:0 (R70). -/
def formatN (opc : BitVec 8) (n : BitVec 7) : Word := opc.setWidth 32 <<< 24 ||| n.setWidth 32

/-- The encoder: the command word of a command (R70, R72). -/
def encode : Instr → Word
  | .nop => formatZ (opcodeOf .nop)
  | .init => formatZ (opcodeOf .init)
  | .clear => formatZ (opcodeOf .clear)
  | .padblk => formatZ (opcodeOf .padblk)
  | .expand => formatZ (opcodeOf .expand)
  | .ldreg => formatZ (opcodeOf .ldreg)
  | .round n => formatN (opcodeOf (.round n)) n
  | .feedfwd => formatZ (opcodeOf .feedfwd)
  | .compress => formatZ (opcodeOf .compress)
  | .digest => formatZ (opcodeOf .digest)
  | .hmac => formatZ (opcodeOf .hmac)

/-- The instruction the decoder reads from an instruction whose bits are `w`, numbered as the opcode table numbers
them. A command is exactly one 32-bit word moved whole (R70, R55), so bit `k` of `w` is bit `k` of the word; a
number that does not fit one word is no command. -/
def decodeTableWord (nbits w : Nat) : Option Instr :=
  let bits := w % 2 ^ nbits
  if bits < 2 ^ 32 then
    match decode (BitVec.ofNat 32 bits) with
    | .ok i => some i
    | .error _ => none
  else none

end Sys2Proof
end

