-- ==== Sys2Proof/Config.lean ====
section
/-! DEFINITION. The one open parameter of the block (spec/00_scope.md R5; spec/92_eei_decisions.md D5). The one value the
spec leaves open at run time, `Config.pendingSteps`, depends on the state and stands after it. -/

namespace Sys2Proof

/-- The parameter the spec leaves open: `AW`, the address width of the message memory in bits. It is fixed for a
machine; no step changes it. It stands in the state as data, so that every statement about all states is a
statement about all values of `AW` (spec/93_implementation_defined.md U12; log entry 1). -/
structure Config where
  aw : Nat
  deriving DecidableEq, Repr

/-- The admitted values: an integer with `1 <= AW <= 64` (R5). -/
abbrev Config.wf (c : Config) : Prop := 1 ≤ c.aw ∧ c.aw ≤ 64

/-- The value the spec gives where nothing else is said: 64 (R5). -/
def Config.standard : Config := { aw := 64 }

end Sys2Proof
end

