-- ==== Sys2Proof/Machine/Constants.lean ====
section
/-! DEFINITION. The constants of the design. None of them is state and nothing changes them
(spec/10_state.md R21, R23, R33; spec/40_primitives.md R97; spec/45_hmac.md R182). -/

namespace Sys2Proof.Machine

/-- The initial value of the running state (R21). -/
def IV : Words8 where
  a := 0x7380166f
  b := 0x4914b2b9
  c := 0x172442d7
  d := 0xda8a0600
  e := 0xa96f30bc
  f := 0x163138aa
  g := 0xe38dee4d
  h := 0xb0fb0e4e

/-- The unrotated round constant `T(j)`, `j = 0..63` (R97). -/
def roundConst (j : Nat) : Word := if j ≤ 15 then 0x79cc4519 else 0x7a879d8a

/-- One byte of `ipad` (R182). -/
def ipadByte : Byte := 0x36

/-- One byte of `opad` (R182). -/
def opadByte : Byte := 0x5c

/-- What the register `ID` reads: "SM3" and interface version 1 (R33). -/
def idWord : Word := 0x534D3301

/-- What a byte of the message memory that nothing has written reads as. The spec makes the memory a total function
(R51) and states no contents; zero is the contents its programs start from (95_test_vectors.md section 9; log
entry 2). -/
def unwrittenByte : Byte := 0x00

end Sys2Proof.Machine
end

