-- ==== Sys2Proof/Machine/State.lean ====
section
/-! DEFINITION. The state of the machine as plain data: every register and file of the block (spec/10_state.md R20
to R39), the message memory outside it (spec/20_memory.md R50), and the HOST agent (spec/00_scope.md R6;
spec/30_encoding.md R75): the transactions it has still to make and the values its register reads were given.
With it the one free value, how long a command stays pending, the reasons a step can stop, and the state after reset. -/

namespace Sys2Proof.Machine

/-- One transaction of the HOST, a line of its script (R75), or the wider memory write of R209. A `MEM` line of several
bytes is several `mem` transactions, one a byte (log entry 11). -/
inductive Transaction where
  /-- `WR reg, value`: a register write at word index `idx` (R204). -/
  | write (idx : BitVec 6) (data : Word)
  /-- `RD reg`: a register read at word index `idx` (R205). -/
  | read (idx : BitVec 6)
  /-- `WAIT`: read `STATUS` until its bit 0 is 0 (R75). -/
  | wait
  /-- `MEM addr: byte`: a write of one byte of the message memory, made only while `BUSY = 0` (R75). -/
  | mem (addr : Nat) (byte : Byte)
  /-- The memory write of R209, which the script notation has no line for: allowed also while `BUSY = 1`, outside the
  pending command's footprint (log entry 11). -/
  | store (addr : Nat) (byte : Byte)
  /-- `RESET`: the reset event (R210, R250). -/
  | reset
  deriving DecidableEq, Repr

/-- The four causes a command can fail with (R220). They are no stops of the machine: taking one is a next state
(R228). -/
inductive FaultCode where
  /-- Code 1: the word is not a legal command (R221). -/
  | ill
  /-- Code 2: a stream's bit length does not fit 64 bits (R222). -/
  | len
  /-- Code 3: a descriptor's byte range passes the top of the memory (R223). -/
  | range
  /-- Code 4: there is no such block or no such round (R224). -/
  | seq
  deriving DecidableEq, Repr

/-- The whole state. The first field is the parameter `AW`; the next are the block's registers and files, then the
message memory, then the HOST and the schedule. -/
@[ext]
structure State where
  /-- The open parameter `AW` (R5); no step writes it. -/
  cfg : Config
  /-- `V[0..7]`, the running state (R20). -/
  v : Words8
  /-- `R[0..7]`, the working registers `A..H` (R22). -/
  r : Words8
  /-- `W[0..67]`, the expansion words (R25). -/
  w : Vector Word 68
  /-- `WP[0..63]`, the mixed words (R25). -/
  wp : Vector Word 64
  /-- `B[0..63]`, the block buffer (R24). -/
  b : Vector Byte 64
  /-- `K[0..63]`, the normalised key, a transient of `HMAC` (R26). -/
  k : Vector Byte 64
  /-- `I[0..31]`, the serialised inner digest, a transient of `HMAC` (R26). -/
  i : Vector Byte 32
  /-- `J`, the index of the next round (R27). -/
  j : BitVec 7
  /-- `BLKIDX`, the index of the next block `PADBLK` produces (R28). -/
  blkidx : BitVec 56
  /-- `CMDREG`, the latched command word (R29). -/
  cmdreg : Word
  /-- `BUSY`: a command is accepted and not completed (R30). -/
  busy : Bool
  /-- `DONE`: `V` holds the digest of the last macro command (R30). -/
  done : Bool
  /-- `ERR`: the block is locked (R30, R230). -/
  err : Bool
  /-- `FIN`: the last `PADBLK` produced the last block (R30). -/
  fin : Bool
  /-- `ECODE`, the code of the fault that set `ERR` (R30, R220). -/
  ecode : BitVec 4
  /-- `MSG_BASE`, a byte address (R36). -/
  msgBase : BitVec 64
  /-- `MSG_LEN`, a length in bytes (R36). -/
  msgLen : BitVec 64
  /-- `KEY_BASE`, a byte address (R36). -/
  keyBase : BitVec 64
  /-- `KEY_LEN`, a length in bytes (R36). -/
  keyLen : BitVec 64
  /-- The message memory: addresses strictly rising, no entry equal to `unwrittenByte` (R50, R51). -/
  mem : List Host.Cell
  /-- The HOST's transactions still to come, the next one first (R75; log entry 3). -/
  script : List Transaction
  /-- The values the HOST's register reads returned, the oldest first, the polls of `WAIT` among them (R75, R205; log
  entry 4). -/
  answers : List Word
  /-- While a command is pending: how many more steps the HOST makes before the CORE completes it, unless the HOST has
  to wait sooner. The accept step draws it from `Config.pendingSteps` (log entry 3). -/
  slack : Nat
  /-- How many commands have been accepted, so that each accept step draws a fresh value of `Config.pendingSteps` (log
  entry 3). -/
  turn : Nat
  deriving DecidableEq, Repr

end Sys2Proof.Machine

/-- How many steps the HOST makes, if it does not have to wait sooner, between the accept step and the complete step
of the command word `cw` accepted in state `s`: finite and otherwise unspecified (R208, R261). A free value: nothing
can prove what it is (U8; log entry 3), and nothing that it is the same for two states or two words, for it is not
promised to be independent of the data (R259, U14). -/
opaque Sys2Proof.Config.pendingSteps (s : Sys2Proof.Machine.State) (cw : Sys2Proof.Word) : Nat

namespace Sys2Proof.Machine

/-- Why the machine stops with a fault. No command raises one: the block's own faults are next states (R228). -/
inductive Fault where
  /-- Raised by a HOST memory write at an address the memory does not have (`addr >= 2^AW`, R50, R209). Safe: there
  is no such step in the spec, so nothing is claimed of what follows. -/
  | noSuchAddress
  deriving DecidableEq, Repr

/-- Why the machine gives a step no meaning. -/
inductive Refusal where
  /-- Raised by `exec` for a command that has no meaning yet. Safe. -/
  | notModelled (mnemonic : String)
  /-- Raised by a HOST memory write into the footprint of the pending command: the broken stability duty, for which
  the spec gives no step (R60, R209; 93_implementation_defined.md U3). Unsafe in the spec's own words ("errs toward
  proving"): every statement about a run holds under the assumption that the platform keeps the duty (log entry 6). -/
  | stabilityDutyBroken
  deriving DecidableEq, Repr

/-- Eight words of zero. -/
def zeroWords8 : Words8 where
  a := 0
  b := 0
  c := 0
  d := 0
  e := 0
  f := 0
  g := 0
  h := 0

/-- The block after the reset event, every field at the value of the table of R39, beside a given parameter, memory,
HOST and schedule, which are no part of the block. -/
def State.resetWith (cfg : Config) (mem : List Host.Cell) (script : List Transaction) (answers : List Word)
    (slack turn : Nat) : State where
  cfg := cfg
  v := IV
  r := zeroWords8
  w := Vector.replicate 68 0
  wp := Vector.replicate 64 0
  b := Vector.replicate 64 0
  k := Vector.replicate 64 0
  i := Vector.replicate 32 0
  j := 0
  blkidx := 0
  cmdreg := 0
  busy := false
  done := false
  err := false
  fin := false
  ecode := 0
  msgBase := 0
  msgLen := 0
  keyBase := 0
  keyLen := 0
  mem := mem
  script := script
  answers := answers
  slack := slack
  turn := turn

/-- The machine right after reset: the block as R39 and R250 say, `AW` at its default (R5), a memory nothing has
written, and a HOST with nothing to do. -/
def State.reset : State := State.resetWith Config.standard [] [] [] 0 0

end Sys2Proof.Machine
end

