-- ==== Sys2Proof/Machine/Flags.lean ====
section
/-! DEFINITION. The status fields: the `STATUS` word and what a command does to `DONE` and `FIN` (spec/10_state.md R30,
R35). There are no arithmetic flags (R31). -/

namespace Sys2Proof.Machine

namespace State

/-- `STATUS`: bit 0 `BUSY`, bit 1 `DONE`, bit 2 `ERR`, bit 3 `FIN`, bits 7:4 `ECODE`, bits 14:8 `J`, bits 31:15 zero
(R35). -/
def status (s : State) : Word :=
  (0 : BitVec 17) ++ s.j ++ s.ecode ++ BitVec.ofBool s.fin ++ BitVec.ofBool s.err ++ BitVec.ofBool s.done
    ++ BitVec.ofBool s.busy

/-- `DONE <- 0`, as every command but `NOP` and the macro commands does on completion (R30). -/
def clearDone (s : State) : State := { s with done := false }

/-- `FIN <- f` (R30, R116). -/
def setFin (s : State) (f : Bool) : State := { s with fin := f }

end State

end Sys2Proof.Machine
end

