-- ==== Sys2Proof/Machine/Primitives.lean ====
section
/-! DEFINITION. The pure functions every command is built from (spec/40_primitives.md R90 to R101). They read no
state and no memory (R101). -/

namespace Sys2Proof.Machine

/-- Rotation left by `n mod 32` bits: bit `i` moves to bit `(i + n) mod 32` (R92). -/
def rotl (x : Word) (n : Nat) : Word := x.rotateLeft (n % 32)

/-- The permutation of the rounds (R93). -/
def P0 (x : Word) : Word := x ^^^ rotl x 9 ^^^ rotl x 17

/-- The permutation of the expander (R94). -/
def P1 (x : Word) : Word := x ^^^ rotl x 15 ^^^ rotl x 23

/-- The Boolean function on `A, B, C`: exclusive or in rounds 0..15, majority in rounds 16..63 (R95). -/
def FF (j : Nat) (x y z : Word) : Word :=
  if j ≤ 15 then x ^^^ y ^^^ z else (x &&& y) ||| (x &&& z) ||| (y &&& z)

/-- The Boolean function on `E, F, G`: exclusive or in rounds 0..15, choose in rounds 16..63 (R96). -/
def GG (j : Nat) (x y z : Word) : Word :=
  if j ≤ 15 then x ^^^ y ^^^ z else (x &&& y) ||| (~~~x &&& z)

/-- The constant of round `j`: one rotation of the unrotated constant (R97, R141). -/
def TR (j : Nat) : Word := rotl (roundConst j) j

/-- Four bytes to a word, the first byte most significant (R98). -/
def be32 (b0 b1 b2 b3 : Byte) : Word :=
  BitVec.ofNat 32 (b0.toNat * 2 ^ 24 + b1.toNat * 2 ^ 16 + b2.toNat * 2 ^ 8 + b3.toNat)

/-- A word to four bytes, most significant first (R99). -/
def bytes32 (w : Word) : Bytes :=
  [w.extractLsb' 24 8, w.extractLsb' 16 8, w.extractLsb' 8 8, w.extractLsb' 0 8]

/-- The eight bytes of a number below 2^64, most significant first: byte `t` is `(n div 2^(8(7-t))) mod 256`
(R100). -/
def bytes64 (n : Nat) : Bytes := (List.range 8).map fun t => BitVec.ofNat 8 (n / 2 ^ (8 * (7 - t)))

/-- Element `i` of a file of eight words (R10, R11). -/
def word8 (x : Words8) (i : Fin 8) : Word :=
  match i with
  | 0 => x.a
  | 1 => x.b
  | 2 => x.c
  | 3 => x.d
  | 4 => x.e
  | 5 => x.f
  | 6 => x.g
  | 7 => x.h

/-- Exclusive or of tuples, element by element (R8). -/
def xor8 (x y : Words8) : Words8 where
  a := x.a ^^^ y.a
  b := x.b ^^^ y.b
  c := x.c ^^^ y.c
  d := x.d ^^^ y.d
  e := x.e ^^^ y.e
  f := x.f ^^^ y.f
  g := x.g ^^^ y.g
  h := x.h ^^^ y.h

/-- The serialisation of eight words: `bytes32` of each, element 0 first, 32 bytes (R99, R163). -/
def ser (x : Words8) : Bytes :=
  bytes32 x.a ++ bytes32 x.b ++ bytes32 x.c ++ bytes32 x.d ++ bytes32 x.e ++ bytes32 x.f ++ bytes32 x.g ++ bytes32 x.h

end Sys2Proof.Machine
end

