-- ==== Sys2Proof/Machine/Expansion.lean ====
section
/-! DEFINITION. The word expander as a pure function of a block (spec/42_expander.md R130 to R133). -/

namespace Sys2Proof.Machine

/-- The sixteen native words of a block, big-endian (R131, R53). -/
def nativeWords (blk : Vector Byte 64) : List Word :=
  (List.range 16).map fun i =>
    be32 (blk.getD (4 * i) 0) (blk.getD (4 * i + 1) 0) (blk.getD (4 * i + 2) 0) (blk.getD (4 * i + 3) 0)

/-- The right side of the recurrence, for the word that comes after the words `ws` (R132): `d` back is
`W[j - d]`. -/
def nextWord (ws : List Word) : Word :=
  let back (d : Nat) : Word := ws.getD (ws.length - d) 0
  P1 (back 16 ^^^ back 9 ^^^ rotl (back 3) 15) ^^^ rotl (back 13) 7 ^^^ back 6

/-- `count` further words by the recurrence, in increasing order of their index (R132). -/
@[irreducible] def extendWords : Nat → List Word → List Word
  | 0, ws => ws
  | count + 1, ws => extendWords count (ws ++ [nextWord ws])

/-- `W[0..67]` of a block (R131, R132). -/
@[irreducible] def expandW (blk : Vector Byte 64) : Vector Word 68 :=
  let ws := extendWords 52 (nativeWords blk)
  Vector.ofFn fun j => ws.getD j.val 0

/-- `WP[0..63]` from `W[0..67]` (R133). -/
@[irreducible] def mixWords (w : Vector Word 68) : Vector Word 64 :=
  Vector.ofFn fun j => w[j.val] ^^^ w[j.val + 4]

/-- The expansion of a block (R130). -/
def expandBlock (blk : Vector Byte 64) : Vector Word 68 × Vector Word 64 :=
  let w := expandW blk
  (w, mixWords w)

end Sys2Proof.Machine
end

