-- ==== Sys2Proof/Machine/Memory.lean ====
section
/-! DEFINITION. The message memory: a total function of addresses to bytes, held as a list of cells in one canonical
form (spec/20_memory.md R50, R51). -/

namespace Sys2Proof.Machine

/-- The message memory as data. -/
abbrev Memory := List Host.Cell

/-- The canonical form: addresses strictly rising, no cell equal to what an unlisted address reads as. -/
abbrev memWF (m : Memory) : Prop :=
  m.Pairwise (fun c d => c.1 < d.1) ∧ ∀ c ∈ m, c.2 ≠ unwrittenByte

/-- `Mem[addr]`: the byte at an address (R51). -/
def memByte : Memory → Nat → Byte
  | [], _ => unwrittenByte
  | c :: rest, addr => if c.1 = addr then c.2 else memByte rest addr

/-- The cells of one byte: none where the byte is what an unlisted address reads as. -/
def cellOf (addr : Nat) (byte : Byte) : Memory := if byte = unwrittenByte then [] else [(addr, byte)]

/-- `Mem[addr] <- byte` (R209), in canonical form. -/
def memSet : Memory → Nat → Byte → Memory
  | [], addr, byte => cellOf addr byte
  | c :: rest, addr, byte =>
    if c.1 < addr then c :: memSet rest addr byte
    else if c.1 = addr then cellOf addr byte ++ rest
    else cellOf addr byte ++ c :: rest

/-- `MemRead(addr, n)`: the `n` bytes from `addr` on, lowest address first (R10, R51). -/
def memRead (m : Memory) (addr n : Nat) : Bytes := (List.range n).map fun t => memByte m (addr + t)

end Sys2Proof.Machine
end

