-- ==== Sys2Proof/Machine/Padding.lean ====
section
/-! DEFINITION. Padding: the padded string of a byte string, its lengths, and its blocks by position
(spec/41_preprocessor.md R110 to R114). -/

namespace Sys2Proof.Machine

/-- The number of zero bits of the padding, for any bit length: `(447 - len) mod 512` (R111). -/
def kbits (len : Nat) : Nat := ((447 - (len : Int)) % 512).toNat

/-- The number of whole zero bytes after the `0x80` byte, for a length in bytes: `(55 - n) mod 64` (R111, R112). -/
def zeroBytes (n : Nat) : Nat := ((55 - (n : Int)) % 64).toNat

/-- The number of blocks of the padded form of `n` bytes, at least 1 (R113). -/
def nblocks (n : Nat) : Nat := (n + 8) / 64 + 1

/-- The length of the padded form of `n` bytes (R113). -/
def padlen (n : Nat) : Nat := 64 * nblocks n

/-- The padded string: the message, `0x80`, the zero bytes, the length in bits (R112). -/
def pad (S : Bytes) : Bytes :=
  S ++ [0x80] ++ List.replicate (zeroBytes S.length) 0x00 ++ bytes64 (8 * S.length)

/-- Block `i` of the padded string, its 64 bytes from `64 * i` on (R114). -/
def padblock (S : Bytes) (i : Nat) : Bytes := ((pad S).drop (64 * i)).take 64

/-- The byte string a hash pass consumes, as a length and the byte at each position below it (R12 "stream", R115): the
form in which a command reads it, one byte at a time and only where it needs one (R52, R57). -/
structure ByteStream where
  len : Nat
  byte : Nat → Byte

/-- The byte at position `p` of the padded form of a stream, `p < padlen len` (R114). -/
def padByte (S : ByteStream) (p : Nat) : Byte :=
  if p < S.len then S.byte p
  else if p = S.len then 0x80
  else if p < padlen S.len - 8 then 0x00
  else (bytes64 (8 * S.len)).getD (p - (padlen S.len - 8)) 0

/-- Block `i` of the padded form of a stream, as the block buffer holds it: `B[t]` is the byte at position
`64 * i + t` (R114, R115). -/
@[irreducible] def streamBlock (S : ByteStream) (i : Nat) : Vector Byte 64 := Vector.ofFn fun t => padByte S (64 * i + t.val)

/-- The byte string a stream stands for. -/
def streamBytes (S : ByteStream) : Bytes := (List.range S.len).map S.byte

end Sys2Proof.Machine
end

