-- ==== Sys2Proof/Machine/Rounds.lean ====
section
/-! DEFINITION. The round function and the compression of a block as pure functions (spec/43_compression.md R140 to
R143, R147). -/

namespace Sys2Proof.Machine

/-- One round on the working registers, with the expansion word `w` and the mixed word `wp` of its index; every
right side uses the registers before the round (R143). -/
@[irreducible] def sm3Round (j : Nat) (x : Words8) (w wp : Word) : Words8 :=
  let a12 := rotl x.a 12
  let ss1 := rotl (add32 (add32 a12 x.e) (TR j)) 7
  let ss2 := ss1 ^^^ a12
  let tt1 := add32 (add32 (add32 (FF j x.a x.b x.c) x.d) ss2) wp
  let tt2 := add32 (add32 (add32 (GG j x.e x.f x.g) x.h) ss1) w
  { a := tt1, b := x.a, c := rotl x.b 9, d := x.c, e := P0 tt2, f := x.e, g := rotl x.f 19, h := x.g }

/-- `count` rounds, with the indices `j`, `j + 1`, ... in that order, each with its own two words (R145, R147). Entries
past the files' ends are never read: a command runs rounds 0..63 only (R145). -/
@[irreducible] def runRounds (w : Vector Word 68) (wp : Vector Word 64) : Nat → Nat → Words8 → Words8
  | 0, _, x => x
  | count + 1, j, x => runRounds w wp count (j + 1) (sm3Round j x (w.getD j 0) (wp.getD j 0))

/-- The working register after all 64 rounds (R147). -/
def rounds64 (state : Words8) (w : Vector Word 68) (wp : Vector Word 64) : Words8 := runRounds w wp 64 0 state

/-- The compression of one block: the feed-forward exclusive or of the state with its 64 rounds (R140). -/
def compressBlock (state : Words8) (w : Vector Word 68) (wp : Vector Word 64) : Words8 :=
  xor8 state (rounds64 state w wp)

end Sys2Proof.Machine
end

