-- ==== Sys2Proof/Machine/Ops.lean ====
section
/-! DEFINITION. The operations on the state that the commands share: the frame of a command with the locked state
and the fault entry, the return from a fault, and the micro-operations of the data path. -/

namespace Sys2Proof.Machine

/-- The 4-bit code of a cause (R220). -/
def faultCode : FaultCode → BitVec 4
  | .ill => 1
  | .len => 2
  | .range => 3
  | .seq => 4

namespace State

/-- Fault entry, the whole effect of `raise <code>`: `ERR`, `ECODE` and `DONE` are written if the block is not locked,
and nothing else changes (R228). -/
def raise (s : State) (c : FaultCode) : State :=
  if s.err then s else { s with err := true, ecode := faultCode c, done := false }

/-- The effect of `CLEAR`, which is also the return from a fault (R203, R231): every piece of state takes its reset
value of R39, but for the four descriptors. The parameter, the memory and the HOST are no part of the block. -/
def clearBlock (s : State) : State :=
  { State.resetWith s.cfg s.mem s.script s.answers s.slack s.turn with
    msgBase := s.msgBase
    msgLen := s.msgLen
    keyBase := s.keyBase
    keyLen := s.keyLen }

/-- The effect of the reset event on the block (R250, R251); memory, parameter and HOST are kept. -/
def resetBlock (s : State) : State := State.resetWith s.cfg s.mem s.script s.answers s.slack s.turn

/-- FINISH, the common tail of `DIGEST` and `HMAC`: scratch, counters and `FIN` to zero, `DONE` set; `V` and the
descriptors are kept (R168). `CMDREG` is not in the rule's list of writes, so it keeps the latched word, though the
rule's closing sentence counts it to the reset state: the model's choice (DESIGN CHOICE, log entry 13). -/
def finish (s : State) : State :=
  { s with
    r := zeroWords8
    w := Vector.replicate 68 0
    wp := Vector.replicate 64 0
    b := Vector.replicate 64 0
    k := Vector.replicate 64 0
    i := Vector.replicate 32 0
    j := 0
    blkidx := 0
    fin := false
    done := true }

/-- `FETCH(S, i)`: the block buffer takes block `i` of the padded stream; nothing else changes (R115). -/
def fetch (s : State) (S : ByteStream) (i : Nat) : State := { s with b := streamBlock S i }

/-- All of `W` and `WP` take the expansion of the block buffer (R134). -/
def expandBuffer (s : State) : State :=
  { s with w := (expandBlock s.b).1, wp := (expandBlock s.b).2 }

/-- `R <- V`, `J <- 0` (R144). -/
def loadRegs (s : State) : State := { s with r := s.v, j := 0 }

/-- `n` rounds from round `J` on, and `J` advanced by `n` (R145). -/
def doRounds (s : State) (n : Nat) : State :=
  { s with r := runRounds s.w s.wp n s.j.toNat s.r, j := s.j + BitVec.ofNat 7 n }

/-- The feed-forward: `V <- V xor R` (R160). -/
def feedForward (s : State) : State := { s with v := xor8 s.v s.r }

/-- `R <- V`, 64 rounds, `V <- V xor R` (R146). -/
def compressBuffer (s : State) : State := ((s.loadRegs).doRounds 64).feedForward

/-- One iteration of the block loop: fetch, expand, compress (R167, R187). -/
def absorbStreamBlock (s : State) (S : ByteStream) (i : Nat) : State :=
  ((s.fetch S i).expandBuffer).compressBuffer

/-- The block loop: the blocks `i`, `i + 1`, ... of a stream, `count` of them in that order (R166, R167). -/
@[irreducible] def absorbStream (S : ByteStream) : Nat → Nat → State → State
  | 0, _, s => s
  | count + 1, i, s => absorbStream S count (i + 1) (s.absorbStreamBlock S i)

/-- `HASHPASS(S)`: `V <- IV`, then every block of the padded stream (R187; the body of `DIGEST`, R167). -/
def hashPass (s : State) (S : ByteStream) : State := absorbStream S (nblocks S.len) 0 { s with v := IV }

end State

/-- The frame of a command (R200): a locked block discards it (R230); otherwise, if its fault condition holds on the
state before, the fault is entered and nothing else happens (R228, R229); otherwise its effect takes place. -/
def command (fault : Option FaultCode) (effect : State → State) (s : State) : Host.Outcome State Fault Refusal :=
  if s.err then .next s
  else
    match fault with
    | some c => .next (s.raise c)
    | none => .next (effect s)

end Sys2Proof.Machine
end

