-- ==== Sys2Proof/Machine/Operands.lean ====
section
/-! DEFINITION. The operands of the commands. All of them are implicit but the count of `ROUND`: the byte ranges the
descriptors name, the streams the hash passes consume, the conditions under which an operand makes a command
fault, and the memory bytes a command reads (spec/20_memory.md R51, R52; spec/30_encoding.md R71;
spec/60_exceptions.md R222 to R224, R227). -/

namespace Sys2Proof.Machine

namespace State

/-- The message as a stream: `MemRead(MSG_BASE, MSG_LEN)` (R115). Address arithmetic is exact (R51). -/
def msgStream (s : State) : ByteStream where
  len := s.msgLen.toNat
  byte := fun p => memByte s.mem (s.msgBase.toNat + p)

/-- The key as a stream: `MemRead(KEY_BASE, KEY_LEN)` (R181). -/
def keyStream (s : State) : ByteStream where
  len := s.keyLen.toNat
  byte := fun p => memByte s.mem (s.keyBase.toNat + p)

/-- The inner stream of `HMAC`: the 64 bytes `K xor ipad`, then the message (R183). -/
def innerStream (s : State) : ByteStream where
  len := 64 + s.msgLen.toNat
  byte := fun p =>
    if p < 64 then s.k.getD p 0 ^^^ ipadByte else memByte s.mem (s.msgBase.toNat + (p - 64))

/-- The outer stream of `HMAC`: the 64 bytes `K xor opad`, then the 32 bytes of `I` (R185). -/
def outerStream (s : State) : ByteStream where
  len := 96
  byte := fun p => if p < 64 then s.k.getD p 0 ^^^ opadByte else s.i.getD (p - 64) 0

/-- The message's range passes the top of the memory: `MSG_BASE + MSG_LEN > 2^AW`, exact (R223). -/
abbrev msgBeyondTop (s : State) : Prop := 2 ^ s.cfg.aw < s.msgBase.toNat + s.msgLen.toNat

/-- The key's range passes the top of the memory: `KEY_BASE + KEY_LEN > 2^AW`, exact (R223). -/
abbrev keyBeyondTop (s : State) : Prop := 2 ^ s.cfg.aw < s.keyBase.toNat + s.keyLen.toNat

/-- The fault of `PADBLK`, first condition first (R116, R117, R227). -/
def padblkFault (s : State) : Option FaultCode :=
  if 2 ^ 61 ≤ s.msgLen.toNat then some .len
  else if s.msgBeyondTop then some .range
  else if nblocks s.msgLen.toNat ≤ s.blkidx.toNat then some .seq
  else none

/-- The fault of `ROUND N` (R145). -/
def roundFault (s : State) (n : BitVec 7) : Option FaultCode :=
  if 64 < s.j.toNat + n.toNat then some .seq else none

/-- The fault of `DIGEST`, first condition first (R167, R227). -/
def digestFault (s : State) : Option FaultCode :=
  if 2 ^ 61 ≤ s.msgLen.toNat then some .len
  else if s.msgBeyondTop then some .range
  else none

/-- The fault of `HMAC`, first condition first (R187, R222, R227). -/
def hmacFault (s : State) : Option FaultCode :=
  if (64 < s.keyLen.toNat ∧ 2 ^ 61 ≤ s.keyLen.toNat) ∨ 2 ^ 61 ≤ s.msgLen.toNat + 64 then some .len
  else if s.keyBeyondTop ∨ s.msgBeyondTop then some .range
  else none

/-- The fault a command raises on a state of an unlocked block, if any (R220). -/
def faultOf (s : State) : Instr → Option FaultCode
  | .nop => none
  | .init => none
  | .clear => none
  | .padblk => s.padblkFault
  | .expand => none
  | .ldreg => none
  | .round n => s.roundFault n
  | .feedfwd => none
  | .compress => none
  | .digest => s.digestFault
  | .hmac => s.hmacFault

/-- `addr` is one of the message bytes from position `lo` up to, not including, position `hi`. -/
abbrev inMsg (s : State) (lo hi addr : Nat) : Prop :=
  s.msgBase.toNat + lo ≤ addr ∧ addr < s.msgBase.toNat + hi

/-- `addr` is a byte of the key. -/
abbrev inKey (s : State) (addr : Nat) : Prop :=
  s.keyBase.toNat ≤ addr ∧ addr < s.keyBase.toNat + s.keyLen.toNat

/-- The memory bytes a command reads when it takes effect (R52). -/
def reads (s : State) (addr : Nat) : Instr → Bool
  | .nop => false
  | .init => false
  | .clear => false
  | .padblk => s.inMsg (64 * s.blkidx.toNat) (min (64 * s.blkidx.toNat + 64) s.msgLen.toNat) addr
  | .expand => false
  | .ldreg => false
  | .round _ => false
  | .feedfwd => false
  | .compress => false
  | .digest => s.inMsg 0 s.msgLen.toNat addr
  | .hmac => s.inMsg 0 s.msgLen.toNat addr || s.inKey addr

/-- `addr` is in the footprint of a command on a state: a locked block discards the command (R230) and a faulting
command reads no memory (R229), so their footprints are empty (log entry 7). -/
def inFootprint (s : State) (i : Instr) (addr : Nat) : Bool :=
  !s.err && (s.faultOf i).isNone && s.reads addr i

end State

end Sys2Proof.Machine
end

