-- ==== Sys2Proof/Machine/Accumulator.lean ====
section
/-! DEFINITION. The digest accumulator's commands `FEEDFWD` and `DIGEST` (spec/44_accumulator_digest.md R160, R167,
R168). -/

namespace Sys2Proof.Machine

/-- `FEEDFWD`: the one exclusive or of the working registers into the running state (R160). -/
def execFeedfwd (s : State) : Host.Outcome State Fault Refusal :=
  command none (fun t => t.feedForward.clearDone) s

/-- The effect of `DIGEST`: a hash pass over the message, then FINISH (R167, R168). -/
def digestEffect (s : State) : State := (s.hashPass s.msgStream).finish

/-- `DIGEST` (R167). -/
def execDigest (s : State) : Host.Outcome State Fault Refusal := command s.digestFault digestEffect s

end Sys2Proof.Machine
end

