-- ==== Sys2Proof/Machine/Compression.lean ====
section
/-! DEFINITION. The compression engine's commands `LDREG`, `ROUND N`, `COMPRESS` (spec/43_compression.md R144 to
R146). -/

namespace Sys2Proof.Machine

/-- `LDREG`: the working registers take the running state, `J <- 0` (R144). -/
def execLdreg (s : State) : Host.Outcome State Fault Refusal :=
  command none (fun t => t.loadRegs.clearDone) s

/-- `ROUND N`: `N` rounds from round `J` on, or `E_SEQ` before any round (R145). -/
def execRound (n : BitVec 7) (s : State) : Host.Outcome State Fault Refusal :=
  command (s.roundFault n) (fun t => (t.doRounds n.toNat).clearDone) s

/-- `COMPRESS`: load, 64 rounds, feed-forward (R146). -/
def execCompress (s : State) : Host.Outcome State Fault Refusal :=
  command none (fun t => t.compressBuffer.clearDone) s

end Sys2Proof.Machine
end

