-- ==== Sys2Proof/Machine/Control.lean ====
section
/-! DEFINITION. The control commands `NOP`, `INIT`, `CLEAR` (spec/46_control.md R201 to R203). -/

namespace Sys2Proof.Machine

/-- `NOP`: no effect; every register, file and flag keeps its value (R201). -/
def execNop (s : State) : Host.Outcome State Fault Refusal := command none id s

/-- The effect of `INIT`: `V <- IV`, and `BLKIDX`, `J`, `FIN`, `DONE` to zero; scratch is kept (R202). -/
def initEffect (s : State) : State := { s with v := IV, blkidx := 0, j := 0, fin := false, done := false }

/-- `INIT` (R202). -/
def execInit (s : State) : Host.Outcome State Fault Refusal := command none initEffect s

/-- `CLEAR`, the one command that takes effect while the block is locked: the reset values, the descriptors kept
(R200, R203, R231). -/
def execClear (s : State) : Host.Outcome State Fault Refusal := .next s.clearBlock

end Sys2Proof.Machine
end

