-- ==== Sys2Proof/Machine/Expander.lean ====
section
/-! DEFINITION. The word expander's command `EXPAND` (spec/42_expander.md R134). -/

namespace Sys2Proof.Machine

/-- `EXPAND`: all of `W` and `WP` from the block buffer (R134). -/
def execExpand (s : State) : Host.Outcome State Fault Refusal :=
  command none (fun t => t.expandBuffer.clearDone) s

end Sys2Proof.Machine
end

