-- ==== Sys2Proof/Machine/Hmac.lean ====
section
/-! DEFINITION. The HMAC wrapper's command `HMAC` (spec/45_hmac.md R181 to R187). -/

namespace Sys2Proof.Machine

/-- The first 32 bytes of a file of 64 or 32 bytes as `ser(V)` gives them, zero after them. -/
def serByte (x : Words8) (t : Nat) : Byte := (ser x).getD t 0

/-- `K <- normkey(key)`: a key longer than 64 bytes is hashed by a full hash pass and its digest zero-extended;
a shorter one is copied and zero-extended (R181, R187). -/
def loadKey (s : State) : State :=
  if 64 < s.keyLen.toNat then
    let t := s.hashPass s.keyStream
    { t with k := Vector.ofFn fun p => serByte t.v p.val }
  else
    { s with k := Vector.ofFn fun p => if p.val < s.keyLen.toNat then s.keyStream.byte p.val else 0x00 }

/-- The inner pass: the inner stream is hashed and `I` takes the serialised digest (R183 to R185). -/
def innerPass (s : State) : State :=
  let t := s.hashPass s.innerStream
  { t with i := Vector.ofFn fun p => serByte t.v p.val }

/-- The outer pass: the outer stream is hashed (R185, R186). -/
def outerPass (s : State) : State := s.hashPass s.outerStream

/-- The effect of `HMAC` (R187). -/
def hmacEffect (s : State) : State := (outerPass (innerPass (loadKey s))).finish

/-- `HMAC` (R187). -/
def execHmac (s : State) : Host.Outcome State Fault Refusal := command s.hmacFault hmacEffect s

end Sys2Proof.Machine
end

