-- ==== Sys2Proof/Machine/Preprocessor.lean ====
section
/-! DEFINITION. The message preprocessor's command `PADBLK` (spec/41_preprocessor.md R115 to R117). -/

namespace Sys2Proof.Machine

/-- The effect of `PADBLK`: the block buffer takes block `BLKIDX` of the padded message, `FIN` says whether it is
the last, `BLKIDX` advances (R116). -/
def padblkEffect (s : State) : State :=
  { ((s.fetch s.msgStream s.blkidx.toNat).setFin
      (decide (s.blkidx.toNat + 1 = nblocks s.msgLen.toNat))).clearDone with
    blkidx := s.blkidx + 1 }

/-- `PADBLK` (R116). -/
def execPadblk (s : State) : Host.Outcome State Fault Refusal := command s.padblkFault padblkEffect s

end Sys2Proof.Machine
end

