-- ==== Sys2Proof/Machine/Dispatch.lean ====
section
/-! DEFINITION. What each command does, one arm a command (spec/46_control.md R200). -/

namespace Sys2Proof.Machine

def exec (i : Instr) (s : State) : Host.Outcome State Fault Refusal :=
  match i with
  | .nop => Sys2Proof.Machine.execNop s
  | .init => Sys2Proof.Machine.execInit s
  | .clear => Sys2Proof.Machine.execClear s
  | .padblk => Sys2Proof.Machine.execPadblk s
  | .expand => Sys2Proof.Machine.execExpand s
  | .ldreg => Sys2Proof.Machine.execLdreg s
  | .round n => Sys2Proof.Machine.execRound n s
  | .feedfwd => Sys2Proof.Machine.execFeedfwd s
  | .compress => Sys2Proof.Machine.execCompress s
  | .digest => Sys2Proof.Machine.execDigest s
  | .hmac => Sys2Proof.Machine.execHmac s

end Sys2Proof.Machine
end

