-- ==== Sys2Proof/Machine/Complete.lean ====
section
/-! DEFINITION. The CORE's one step: completing the latched command (spec/46_control.md R200, R208). -/

namespace Sys2Proof.Machine

/-- `BUSY <- 0`, the end of every complete step (R208, R228). -/
def notBusy (s : State) : State := { s with busy := false }

/-- An outcome with `BUSY <- 0` in its next state. -/
def endCommand : Host.Outcome State Fault Refusal → Host.Outcome State Fault Refusal
  | .next t => .next (notBusy t)
  | .fault f => .fault f
  | .refused r => .refused r

/-- What the complete step does with the latched word: the command it decodes to, or `E_ILL`; on a locked block an
illegal word is discarded like any other (R200, R221, R230). -/
def execWord (cw : Word) (s : State) : Host.Outcome State Fault Refusal :=
  match decode cw with
  | .ok i => exec i s
  | .error _ => .next (s.raise .ill)

/-- The complete step (R208). -/
def complete (s : State) : Host.Outcome State Fault Refusal := endCommand (execWord s.cmdreg s)

end Sys2Proof.Machine
end

