-- ==== Sys2Proof/Machine/Registers.lean ====
section
/-! DEFINITION. The register space: the map and the HOST's register transactions (spec/10_state.md R32 to R36;
spec/46_control.md R204, R205, R207). -/

namespace Sys2Proof.Machine

/-- The registers of the map (R32). -/
inductive Reg where
  /-- `ID`, read-only (R33). -/
  | id
  /-- `CMD`, write-only (R34). -/
  | cmd
  /-- `STATUS`, read-only (R35). -/
  | status
  | msgBaseLo
  | msgBaseHi
  | msgLenLo
  | msgLenHi
  | keyBaseLo
  | keyBaseHi
  | keyLenLo
  | keyLenHi
  /-- `BLKIDX_LO`, read-only (R28). -/
  | blkidxLo
  /-- `BLKIDX_HI`, read-only (R28). -/
  | blkidxHi
  /-- `DIGESTi`, read-only (R36). -/
  | digest (i : Fin 8)
  /-- Every offset the map leaves out: reads zero, writes ignored (R32). -/
  | reserved
  deriving DecidableEq, Repr

/-- The register at a word index, `idx = offset / 4` (R32). -/
def regAt (idx : BitVec 6) : Reg :=
  match idx.toNat with
  | 0 => .id
  | 1 => .cmd
  | 2 => .status
  | 4 => .msgBaseLo
  | 5 => .msgBaseHi
  | 6 => .msgLenLo
  | 7 => .msgLenHi
  | 8 => .keyBaseLo
  | 9 => .keyBaseHi
  | 10 => .keyLenLo
  | 11 => .keyLenHi
  | 12 => .blkidxLo
  | 13 => .blkidxHi
  | 16 => .digest 0
  | 17 => .digest 1
  | 18 => .digest 2
  | 19 => .digest 3
  | 20 => .digest 4
  | 21 => .digest 5
  | 22 => .digest 6
  | 23 => .digest 7
  | _ => .reserved

/-- The low half of a 64-bit descriptor, bits 31:0 (R36). -/
def loHalf (d : BitVec 64) : Word := d.extractLsb' 0 32

/-- The high half of a 64-bit descriptor, bits 63:32 (R36). -/
def hiHalf (d : BitVec 64) : Word := d.extractLsb' 32 32

/-- A descriptor with its low half written and the other half kept (R36). -/
def withLo (d : BitVec 64) (data : Word) : BitVec 64 := hiHalf d ++ data

/-- A descriptor with its high half written and the other half kept (R36). -/
def withHi (d : BitVec 64) (data : Word) : BitVec 64 := data ++ loHalf d

namespace State

/-- The accept step: the command word is latched and `BUSY` rises; no fault is detected here (R207). How long the command
stays pending is drawn from the free value, which may depend on all of the state, message and key bytes among it, and on
the word (R259, U8, U14; log entry 3). -/
def accept (s : State) (cw : Word) : State :=
  { s with cmdreg := cw, busy := true, slack := Config.pendingSteps s cw, turn := s.turn + 1 }

/-- A register read of an idle block, and of `ID` and `STATUS` whatever `BUSY` is: the value returned (R205). -/
def regRead (s : State) (idx : BitVec 6) : Word :=
  match regAt idx with
  | .id => idWord
  | .cmd => 0
  | .status => s.status
  | .msgBaseLo => loHalf s.msgBase
  | .msgBaseHi => hiHalf s.msgBase
  | .msgLenLo => loHalf s.msgLen
  | .msgLenHi => hiHalf s.msgLen
  | .keyBaseLo => loHalf s.keyBase
  | .keyBaseHi => hiHalf s.keyBase
  | .keyLenLo => loHalf s.keyLen
  | .keyLenHi => hiHalf s.keyLen
  | .blkidxLo => s.blkidx.extractLsb' 0 32
  | .blkidxHi => (s.blkidx.extractLsb' 32 24).setWidth 32
  | .digest i => word8 s.v i
  | .reserved => 0

/-- A register write on an idle block: the accept step, one descriptor half, or nothing (R204). -/
def regWrite (s : State) (idx : BitVec 6) (data : Word) : State :=
  match regAt idx with
  | .id => s
  | .cmd => s.accept data
  | .status => s
  | .msgBaseLo => { s with msgBase := withLo s.msgBase data }
  | .msgBaseHi => { s with msgBase := withHi s.msgBase data }
  | .msgLenLo => { s with msgLen := withLo s.msgLen data }
  | .msgLenHi => { s with msgLen := withHi s.msgLen data }
  | .keyBaseLo => { s with keyBase := withLo s.keyBase data }
  | .keyBaseHi => { s with keyBase := withHi s.keyBase data }
  | .keyLenLo => { s with keyLen := withLo s.keyLen data }
  | .keyLenHi => { s with keyLen := withHi s.keyLen data }
  | .blkidxLo => s
  | .blkidxHi => s
  | .digest _ => s
  | .reserved => s

end State

end Sys2Proof.Machine
end

