-- ==== Sys2Proof/Machine/HostAgent.lean ====
section
/-! DEFINITION. The steps of the HOST: its transactions, which of them wait while a command is pending, and the effect
of each (spec/46_control.md R204 to R207, R209, R210; spec/30_encoding.md R75). -/

namespace Sys2Proof.Machine

/-- The HOST's next transaction is not made while `BUSY = 1`: every register write and every register read but of `ID`
and `STATUS` is held by the block (R206), and a `MEM` line is allowed only while `BUSY = 0`, so the HOST waits with it
(R75; that it waits is a DESIGN CHOICE, log entry 11). A `WAIT` reads `STATUS` and is not held; a memory write of R209
and a reset are no register accesses (R209, R210). -/
def heldWhileBusy : Transaction → Bool
  | .write _ _ => true
  | .read idx => !(regAt idx = .id || regAt idx = .status)
  | .wait => false
  | .mem _ _ => true
  | .store _ _ => false
  | .reset => false

namespace State

/-- `addr` is in the footprint of the pending command; an illegal word reads no memory (R52, R209). -/
def inPendingFootprint (s : State) (addr : Nat) : Bool :=
  match decode s.cmdreg with
  | .ok i => s.inFootprint i addr
  | .error _ => false

/-- A HOST memory write: any address of the memory, but no address of the pending command's footprint while
`BUSY = 1` (R209, R60). -/
def memWrite (s : State) (addr : Nat) (byte : Byte) : Host.Outcome State Fault Refusal :=
  if 2 ^ s.cfg.aw ≤ addr then .fault .noSuchAddress
  else if s.busy && s.inPendingFootprint addr then .refused .stabilityDutyBroken
  else .next { s with mem := memSet s.mem addr byte }

/-- A register read by the HOST: the block is unchanged and the value goes to the HOST (R205; log entry 4). -/
def readReg (s : State) (idx : BitVec 6) : State := { s with answers := s.answers ++ [s.regRead idx] }

/-- One transaction of the HOST, performed, after it has left the script. A `WAIT` is one read of `STATUS` a step, every
poll recorded like any other read, the last too; while `BUSY = 1` it stays in the script (R75; DESIGN CHOICE, log
entries 3 and 4: the number of polls, and where their values go). -/
def perform (s : State) : Transaction → Host.Outcome State Fault Refusal
  | .write idx data => .next (s.regWrite idx data)
  | .read idx => .next (s.readReg idx)
  | .wait => .next { s.readReg 2 with script := if s.busy then .wait :: s.script else s.script }
  | .mem addr byte => s.memWrite addr byte
  | .store addr byte => s.memWrite addr byte
  | .reset => .next s.resetBlock

/-- The HOST's step: its next transaction leaves the script and is performed; a HOST with nothing to do leaves the
machine as it is (R6, R236). -/
def hostMove (s : State) : Host.Outcome State Fault Refusal :=
  match s.script with
  | [] => .next s
  | t :: rest => perform { s with script := rest } t

/-- The HOST cannot move before the pending command completes: its next transaction is held, or it has none
(R206). -/
def hostWaits (s : State) : Bool :=
  match s.script with
  | [] => true
  | t :: _ => heldWhileBusy t

/-- One of the steps the HOST makes while the command is pending is used up (log entry 3). -/
def spend (s : State) : State := { s with slack := s.slack - 1 }

end State

end Sys2Proof.Machine
end

