-- ==== Sys2Proof/Machine/Step.lean ====
section
/-! DEFINITION. One step of the machine (spec/00_scope.md R6; spec/46_control.md R204 to R210), and the state in which
the next step runs a given word. -/

namespace Sys2Proof.Machine

/-- One step. While no command is pending the HOST makes its next transaction. While one is pending the CORE completes
it if the HOST has to wait (R206, R208); where both could move (a read of `ID` or `STATUS`, a poll of `WAIT`, a memory
write, a reset), the HOST moves as often as the free value drawn at the accept step says, and then the CORE does (log
entry 3). -/
def step (s : State) : Host.Outcome State Fault Refusal :=
  if s.busy then
    if s.hostWaits || s.slack == 0 then complete s
    else s.spend.hostMove
  else s.hostMove

/-- The state with a command accepted that the CORE completes before the HOST moves, so that the very next step runs
exactly that command (log entry 5). The CORE takes its commands from `CMDREG` (R27, R29, R208). -/
def State.withFetchWord (s : State) (nbits w : Nat) : State :=
  { s with cmdreg := BitVec.ofNat 32 (w % 2 ^ nbits), busy := true, slack := 0 }

end Sys2Proof.Machine
end

