-- ==== Sys2Proof/Machine/Algorithm.lean ====
section
/-! DEFINITION. The algorithm layer on byte strings: the digest and the HMAC as the spec writes them, with no machine
in them (spec/44_accumulator_digest.md R161 to R164; spec/45_hmac.md R180 to R186). The commands do not call these
functions; statements say that the commands compute them. -/

namespace Sys2Proof.Machine

/-- The first 64 bytes of a string as a block (a block of R161 has exactly 64). -/
def blockOfBytes (S : Bytes) : Vector Byte 64 := Vector.ofFn fun t => S.getD t.val 0

/-- Absorbing one block (R161). -/
def absorb (v : Words8) (blk : Vector Byte 64) : Words8 :=
  compressBlock v (expandBlock blk).1 (expandBlock blk).2

/-- Absorbing the blocks `i`, `i + 1`, ... of the padded string, `count` of them in that order (R162, R166). -/
def absorbBlocks (S : Bytes) : Nat → Nat → Words8 → Words8
  | 0, _, v => v
  | count + 1, i, v => absorbBlocks S count (i + 1) (absorb v (blockOfBytes (padblock S i)))

/-- `state(S)`: the chained state after all blocks of the padded string, from `IV` (R162). -/
def chainState (S : Bytes) : Words8 := absorbBlocks S (nblocks S.length) 0 IV

/-- The digest function (R164). -/
def sm3 (S : Bytes) : Bytes := ser (chainState S)

/-- Zero bytes appended up to length 64 (R181). -/
def zeroExtend64 (S : Bytes) : Bytes := S ++ List.replicate (64 - S.length) 0x00

/-- The key normalised to 64 bytes: hashed first only when it is longer than 64 (R181). -/
def normkey (key : Bytes) : Bytes := if 64 < key.length then zeroExtend64 (sm3 key) else zeroExtend64 key

/-- Exclusive or of every byte with one byte (R182). -/
def xorBytes (pad : Byte) (S : Bytes) : Bytes := S.map (· ^^^ pad)

/-- The HMAC of a message under a key, message first (R180, R183 to R186). -/
def hmac (msg key : Bytes) : Bytes :=
  let innerKey := xorBytes ipadByte (normkey key)
  let outerKey := xorBytes opadByte (normkey key)
  sm3 (outerKey ++ sm3 (innerKey ++ msg))

end Sys2Proof.Machine
end

