-- ==== Sys2Proof/Machine/Script.lean ====
section
/-! DEFINITION. The pseudo-commands of the script notation, each with its fixed expansion into transactions
(spec/30_encoding.md R75, R76). -/

namespace Sys2Proof.Machine

/-- `CMD mnemonic`: the write of the command word to `CMD` (R75). -/
def cmdLine (i : Instr) : Transaction := .write 1 (encode i)

/-- `MEM addr: b0 b1 ...` (R75). -/
def memLine (addr : Nat) (bytes : Bytes) : List Transaction :=
  bytes.mapIdx fun t byte => .mem (addr + t) byte

/-- `SETMSG base, len` (R76). -/
def setMsg (base len : BitVec 64) : List Transaction :=
  [.write 4 (loHalf base), .write 5 (hiHalf base), .write 6 (loHalf len), .write 7 (hiHalf len)]

/-- `SETKEY base, len` (R76). -/
def setKey (base len : BitVec 64) : List Transaction :=
  [.write 8 (loHalf base), .write 9 (hiHalf base), .write 10 (loHalf len), .write 11 (hiHalf len)]

/-- `GO mnemonic` (R76). -/
def go (i : Instr) : List Transaction := [cmdLine i, .wait]

/-- `BLOCK`: fetch and absorb one block of the padded message (R76). -/
def blockLines : List Transaction := go .padblk ++ go .expand ++ go .compress

/-- `RDDIGEST` (R76). -/
def rdDigest : List Transaction :=
  [.read 16, .read 17, .read 18, .read 19, .read 20, .read 21, .read 22, .read 23]

/-- `SM3 base, len` (R76). -/
def sm3Lines (base len : BitVec 64) : List Transaction := setMsg base len ++ go .digest ++ [.read 2] ++ rdDigest

/-- `SM3HMAC kbase, klen, mbase, mlen` (R76). -/
def sm3HmacLines (kbase klen mbase mlen : BitVec 64) : List Transaction :=
  setKey kbase klen ++ setMsg mbase mlen ++ go .hmac ++ [.read 2] ++ rdDigest

end Sys2Proof.Machine
end

