-- ==== Sys2Proof/Safety.lean ====
section
/-! DEFINITION. The terms the statements use: the invariant of the machine, sequences of commands, and what "only these
registers changed" means. -/

namespace Sys2Proof.Machine

/-- What every state the machine reaches satisfies, and every step keeps. Each field cites the rule that says it. -/
structure Inv (s : State) : Prop where
  /-- `AW` is admitted (R5). -/
  cfg_wf : s.cfg.wf
  /-- The memory is in canonical form. -/
  mem_wf : memWF s.mem
  /-- The memory has no cell beyond its top (R50). -/
  mem_bound : ∀ c ∈ s.mem, c.1 < 2 ^ s.cfg.aw
  /-- `J` is 0..64; 65 to 127 are unreachable (R27). -/
  j_le : s.j.toNat ≤ 64
  /-- `BLKIDX <= 2^55 + 1`, so it cannot overflow (R28). -/
  blkidx_le : s.blkidx.toNat ≤ 2 ^ 55 + 1
  /-- `ECODE` values 5 to 15 are never produced (R220, U7). -/
  ecode_le : s.ecode.toNat ≤ 4
  /-- `ECODE` is 0 whenever `ERR = 0` (R30), and names a fault whenever `ERR = 1` (R231). -/
  ecode_zero_iff : s.ecode = 0 ↔ s.err = false
  /-- A locked block is not done: fault entry cleared `DONE`, and nothing sets it while locked (R228, R230). -/
  err_done : s.err = true → s.done = false
  /-- `FIN` was set by a `PADBLK` that also advanced `BLKIDX` (R30, R116). -/
  fin_blkidx : s.fin = true → s.blkidx ≠ 0
  /-- The transient `K` is zero at every command boundary (R26). -/
  k_zero : s.k = Vector.replicate 64 0
  /-- The transient `I` is zero at every command boundary (R26). -/
  i_zero : s.i = Vector.replicate 32 0
  /-- After a macro command, and until another command touches the data path, the scratch is zero (R37, R168). -/
  done_scratch : s.done = true →
    s.r = zeroWords8 ∧ s.w = Vector.replicate 68 0 ∧ s.wp = Vector.replicate 64 0 ∧ s.b = Vector.replicate 64 0 ∧
      s.j = 0 ∧ s.blkidx = 0 ∧ s.fin = false

/-- One outcome after another: the second runs on the next state of the first, and a stop stays a stop. -/
def andThen (o : Host.Outcome State Fault Refusal) (f : State → Host.Outcome State Fault Refusal) :
    Host.Outcome State Fault Refusal :=
  match o with
  | .next t => f t
  | .fault r => .fault r
  | .refused r => .refused r

/-- The commands of a list, executed one after the other (R59 (4)). -/
def execAll : List Instr → State → Host.Outcome State Fault Refusal
  | [], s => .next s
  | i :: rest, s => andThen (exec i s) (execAll rest)

/-- Fetch and absorb one block at component level: the commands of the pseudo-command `BLOCK` (R76). -/
def blockCommands : List Instr := [.padblk, .expand, .compress]

/-- `INIT`, then `m` times the commands of `BLOCK` (R169). -/
def digestByBlocks (m : Nat) : List Instr := .init :: (List.replicate m blockCommands).flatten

/-- The message a state's descriptors name (R50). -/
def messageOf (s : State) : Bytes := memRead s.mem s.msgBase.toNat s.msgLen.toNat

/-- The key a state's descriptors name (R50). -/
def keyOf (s : State) : Bytes := memRead s.mem s.keyBase.toNat s.keyLen.toNat

end Sys2Proof.Machine
end

