-- ==== Sys2Proof/Certificates/Slice0/Obligations.lean ====
section
/-! DEFINITION. The statements for the provers. Each docstring names the rules of spec/ it states. -/

open Sys2Proof Sys2Proof.Machine

/-! Encoding -/

/-- Decoding the encoding of a well-formed command gives it back, for all eleven commands and every count `ROUND`
admits (R70 to R73). -/
def Obligations.DecodeOfEncodeIsTheCommand : Prop :=
  ∀ i : Instr, i.WellFormed → decode (encode i) = .ok i

/-- A word that decodes to a command is the encoding of that command, and the command is well-formed: no bit of a
legal word is dropped (R70 to R74). -/
def Obligations.EncodeOfDecodeIsTheWord : Prop :=
  ∀ (cw : Word) (i : Instr), decode cw = .ok i → i.WellFormed ∧ encode i = cw

/-- The opcode map of R72, row by row: a word selects a row iff its bits under the mask are the match, and for `ROUND`
additionally its bits 6:0 are 1..64. -/
def Obligations.DecoderFollowsOpcodeMap : Prop :=
  ∀ cw : Word,
    (decode cw = .ok .nop ↔ cw &&& 0xFFFFFFFF = 0x00000000) ∧
    (decode cw = .ok .init ↔ cw &&& 0xFFFFFFFF = 0x01000000) ∧
    (decode cw = .ok .clear ↔ cw &&& 0xFFFFFFFF = 0x02000000) ∧
    (decode cw = .ok .padblk ↔ cw &&& 0xFFFFFFFF = 0x10000000) ∧
    (decode cw = .ok .expand ↔ cw &&& 0xFFFFFFFF = 0x11000000) ∧
    (decode cw = .ok .ldreg ↔ cw &&& 0xFFFFFFFF = 0x12000000) ∧
    (∀ n : BitVec 7, decode cw = .ok (.round n) ↔
      cw &&& 0xFFFFFF80 = 0x13000000 ∧ n = cw.extractLsb' 0 7 ∧ 1 ≤ n.toNat ∧ n.toNat ≤ 64) ∧
    (decode cw = .ok .feedfwd ↔ cw &&& 0xFFFFFFFF = 0x14000000) ∧
    (decode cw = .ok .compress ↔ cw &&& 0xFFFFFFFF = 0x15000000) ∧
    (decode cw = .ok .digest ↔ cw &&& 0xFFFFFFFF = 0x20000000) ∧
    (decode cw = .ok .hmac ↔ cw &&& 0xFFFFFFFF = 0x21000000)

/-- The decoder is total: a word is either the encoding of a well-formed command, which it decodes to, or illegal;
and exactly 74 of the 2^32 words are legal (R73). -/
def Obligations.ExactlySeventyFourLegalWords : Prop :=
  (∀ cw : Word,
    (∃ i : Instr, i.WellFormed ∧ encode i = cw ∧ decode cw = .ok i) ∨
    ((∀ i : Instr, i.WellFormed → encode i ≠ cw) ∧ ∃ e, decode cw = .error e)) ∧
  Set.ncard { cw : Word | ∃ i, decode cw = .ok i } = 74

/-- The illegal words are exactly the three classes of R74, and completing one raises `E_ILL`, code 1, on an unlocked
block and is discarded on a locked one (R74, R221). -/
def Obligations.IllegalWordsRaiseIll : Prop :=
  (∀ cw : Word, (∃ e, decode cw = .error e) ↔
    (cw.extractLsb' 24 8 ∉ ([0x00, 0x01, 0x02, 0x10, 0x11, 0x12, 0x13, 0x14, 0x15, 0x20, 0x21] : List (BitVec 8)) ∨
      (cw.extractLsb' 24 8 ∈ ([0x00, 0x01, 0x02, 0x10, 0x11, 0x12, 0x14, 0x15, 0x20, 0x21] : List (BitVec 8)) ∧
        cw.extractLsb' 0 24 ≠ 0) ∨
      (cw.extractLsb' 24 8 = 0x13 ∧
        (cw.extractLsb' 7 17 ≠ 0 ∨ cw.extractLsb' 0 7 = 0 ∨ 65 ≤ (cw.extractLsb' 0 7).toNat)))) ∧
  (∀ (s : State) (e : Illegal), decode s.cmdreg = .error e →
    (s.err = false → complete s = .next { s with err := true, ecode := 1, done := false, busy := false }) ∧
    (s.err = true → complete s = .next { s with busy := false }))

/-- Words of the decode table (95_test_vectors.md section 8), written out bit by bit as the spec prints them. -/
def Obligations.SampleWordsDecode : Prop :=
  decode 0x00000000 = .ok .nop ∧ decode 0x01000000 = .ok .init ∧ decode 0x02000000 = .ok .clear ∧
  decode 0x10000000 = .ok .padblk ∧ decode 0x11000000 = .ok .expand ∧ decode 0x12000000 = .ok .ldreg ∧
  decode 0x13000001 = .ok (.round 1) ∧ decode 0x13000010 = .ok (.round 16) ∧ decode 0x13000040 = .ok (.round 64) ∧
  decode 0x14000000 = .ok .feedfwd ∧ decode 0x15000000 = .ok .compress ∧ decode 0x20000000 = .ok .digest ∧
  decode 0x21000000 = .ok .hmac ∧
  decode 0x00000001 = .error .reservedBits ∧ decode 0x02800000 = .error .reservedBits ∧
  decode 0x03000000 = .error .unknownOpcode ∧ decode 0x13000000 = .error .roundCountZero ∧
  decode 0x13000041 = .error .roundCountAbove64 ∧ decode 0x13000080 = .error .reservedBits ∧
  decode 0xFFFFFFFF = .error .unknownOpcode

/-! Primitive functions -/

/-- Addition of words is modulo 2^32, commutative and associative (R90). -/
def Obligations.AdditionWrapsModulo : Prop :=
  ∀ a b c : Word,
    (add32 a b).toNat = (a.toNat + b.toNat) % 2 ^ 32 ∧ add32 a b = add32 b a ∧
      add32 (add32 a b) c = add32 a (add32 b c)

/-- Rotation (R92): the formula, where each bit goes, the corner cases, what rotation distributes
over and what not, and the worked values. -/
def Obligations.RotationMovesBits : Prop :=
  (∀ (x : Word) (n : Nat),
    (rotl x n).toNat = x.toNat * 2 ^ (n % 32) % 2 ^ 32 + x.toNat / 2 ^ (32 - n % 32) ∧
    (∀ i : Nat, i < 32 → (rotl x n).getLsbD ((i + n % 32) % 32) = x.getLsbD i) ∧
    rotl x 0 = x ∧ rotl x 32 = x ∧ rotl x (n + 32) = rotl x n ∧
    (∀ m : Nat, rotl (rotl x n) m = rotl x (n + m)) ∧
    (∀ y : Word, rotl (x ^^^ y) n = rotl x n ^^^ rotl y n ∧ rotl (x &&& y) n = rotl x n &&& rotl y n ∧
      rotl (x ||| y) n = rotl x n ||| rotl y n) ∧
    rotl (~~~x) n = ~~~(rotl x n)) ∧
  (∃ (x y : Word) (n : Nat), rotl (add32 x y) n ≠ add32 (rotl x n) (rotl y n)) ∧
  rotl 0x80000000 1 = 0x00000001 ∧ rotl 0x79cc4519 0 = 0x79cc4519 ∧ rotl 0x79cc4519 1 = 0xf3988a32 ∧
  rotl 0x7a879d8a 33 = 0xf50f3b14 ∧ rotl 0x12345678 12 = 0x45678123

/-- `P0` and `P1` by their formulas; `P0` is a bijection on words and linear over exclusive or; both keep zero (R93,
R94). -/
def Obligations.PermutationsOfWords : Prop :=
  (∀ x : Word, P0 x = x ^^^ rotl x 9 ^^^ rotl x 17) ∧ Function.Bijective P0 ∧
  (∀ x y : Word, P0 (x ^^^ y) = P0 x ^^^ P0 y) ∧ P0 0 = 0 ∧
  P0 0x00000001 = 0x00020201 ∧
  (∀ x : Word, P1 x = x ^^^ rotl x 15 ^^^ rotl x 23) ∧ P1 0 = 0 ∧ P1 0x00000001 = 0x00808001

/-- The Boolean functions bit by bit: exclusive or up to round 15; from round 16 on `FF` is the majority and `GG`
chooses by its first argument (R95, R96). -/
def Obligations.BooleanFunctionsBitByBit : Prop :=
  (∀ (j : Nat) (x y z : Word) (i : Nat), i < 32 →
    (j ≤ 15 →
      (FF j x y z).getLsbD i = (x.getLsbD i ^^ y.getLsbD i ^^ z.getLsbD i) ∧
      (GG j x y z).getLsbD i = (x.getLsbD i ^^ y.getLsbD i ^^ z.getLsbD i)) ∧
    (16 ≤ j →
      ((FF j x y z).getLsbD i = true ↔
        2 ≤ (x.getLsbD i).toNat + (y.getLsbD i).toNat + (z.getLsbD i).toNat) ∧
      (GG j x y z).getLsbD i = (if x.getLsbD i then y.getLsbD i else z.getLsbD i))) ∧
  FF 15 0xF0F0F0F0 0xCCCCCCCC 0xAAAAAAAA = 0x96969696 ∧ FF 16 0xF0F0F0F0 0xCCCCCCCC 0xAAAAAAAA = 0xE8E8E8E8 ∧
  GG 15 0xF0F0F0F0 0xCCCCCCCC 0xAAAAAAAA = 0x96969696 ∧ GG 16 0xF0F0F0F0 0xCCCCCCCC 0xAAAAAAAA = 0xCACACACA

/-- The round constants: one rotation of the unrotated constant, with the table of R141 (R97, R141). -/
def Obligations.RoundConstantTable : Prop :=
  (∀ j : Nat, roundConst j = if j ≤ 15 then 0x79cc4519 else 0x7a879d8a) ∧
  (∀ j : Nat, TR j = rotl (roundConst j) j) ∧
  (List.range 64).map TR =
    [0x79cc4519, 0xf3988a32, 0xe7311465, 0xce6228cb, 0x9cc45197, 0x3988a32f, 0x7311465e, 0xe6228cbc,
     0xcc451979, 0x988a32f3, 0x311465e7, 0x6228cbce, 0xc451979c, 0x88a32f39, 0x11465e73, 0x228cbce6] ++
    [0x9d8a7a87, 0x3b14f50f, 0x7629ea1e, 0xec53d43c, 0xd8a7a879, 0xb14f50f3, 0x629ea1e7, 0xc53d43ce,
     0x8a7a879d, 0x14f50f3b, 0x29ea1e76, 0x53d43cec, 0xa7a879d8, 0x4f50f3b1, 0x9ea1e762, 0x3d43cec5] ++
    [0x7a879d8a, 0xf50f3b14, 0xea1e7629, 0xd43cec53, 0xa879d8a7, 0x50f3b14f, 0xa1e7629e, 0x43cec53d,
     0x879d8a7a, 0x0f3b14f5, 0x1e7629ea, 0x3cec53d4, 0x79d8a7a8, 0xf3b14f50, 0xe7629ea1, 0xcec53d43] ++
    [0x9d8a7a87, 0x3b14f50f, 0x7629ea1e, 0xec53d43c, 0xd8a7a879, 0xb14f50f3, 0x629ea1e7, 0xc53d43ce,
     0x8a7a879d, 0x14f50f3b, 0x29ea1e76, 0x53d43cec, 0xa7a879d8, 0x4f50f3b1, 0x9ea1e762, 0x3d43cec5]

/-- Bytes to words and words to bytes are big-endian and invert each other; `bytes64` is the big-endian form of its
number (R98, R99, R100). -/
def Obligations.ByteConversionsAreBigEndian : Prop :=
  (∀ b0 b1 b2 b3 : Byte,
    (be32 b0 b1 b2 b3).toNat = b0.toNat * 2 ^ 24 + b1.toNat * 2 ^ 16 + b2.toNat * 2 ^ 8 + b3.toNat) ∧
  (∀ w : Word, ∃ b0 b1 b2 b3 : Byte, bytes32 w = [b0, b1, b2, b3] ∧ be32 b0 b1 b2 b3 = w ∧
    b0.toNat = w.toNat / 2 ^ 24 % 256 ∧ b1.toNat = w.toNat / 2 ^ 16 % 256 ∧ b2.toNat = w.toNat / 2 ^ 8 % 256 ∧
    b3.toNat = w.toNat % 256) ∧
  (∀ x : Words8, ser x = (List.finRange 8).flatMap (fun i => bytes32 (word8 x i)) ∧ (ser x).length = 32) ∧
  (∀ n : Nat, n < 2 ^ 64 → (bytes64 n).length = 8 ∧
    (∀ t : Nat, t < 8 → ((bytes64 n).getD t 0).toNat = n / 2 ^ (8 * (7 - t)) % 256) ∧
    (bytes64 n).foldl (fun acc b => 256 * acc + b.toNat) 0 = n) ∧
  be32 0x61 0x62 0x63 0x80 = 0x61626380 ∧ bytes32 0x66c7f0f4 = [0x66, 0xc7, 0xf0, 0xf4] ∧
  bytes64 24 = [0, 0, 0, 0, 0, 0, 0, 0x18] ∧ bytes64 512 = [0, 0, 0, 0, 0, 0, 2, 0] ∧
  bytes64 (2 ^ 64 - 8) = [0xff, 0xff, 0xff, 0xff, 0xff, 0xff, 0xff, 0xf8]

/-! Padding -/

/-- `kbits` is the least number of zero bits that brings the length to 448 modulo 512; its values at the boundaries; the
block the padded message ends in; and its form for whole bytes (R111). -/
def Obligations.ZeroBitCountIsLeast : Prop :=
  (∀ len : Nat,
    (len + 1 + kbits len) % 512 = 448 ∧ (∀ k : Nat, (len + 1 + k) % 512 = 448 → kbits len ≤ k) ∧
    (len % 512 ≤ 447 → len + 1 + kbits len + 64 = 512 * (len / 512 + 1)) ∧
    (448 ≤ len % 512 → len + 1 + kbits len + 64 = 512 * (len / 512 + 2))) ∧
  kbits 0 = 447 ∧ kbits 447 = 0 ∧ kbits 448 = 511 ∧ kbits 511 = 448 ∧ kbits 512 = 447 ∧ kbits 440 = 7 ∧
  kbits 504 = 455 ∧
  (∀ n : Nat, kbits (8 * n) = 8 * zeroBytes n + 7 ∧ (n + zeroBytes n) % 64 = 55 ∧ zeroBytes n ≤ 63)

/-- The padded form, its lengths, and the table of R113 (R112, R113). -/
def Obligations.PaddedLengths : Prop :=
  (∀ S : Bytes,
    pad S = S ++ [0x80] ++ List.replicate (zeroBytes S.length) 0x00 ++ bytes64 (8 * S.length) ∧
    (pad S).length = padlen S.length) ∧
  (∀ n : Nat,
    padlen n = n + 1 + zeroBytes n + 8 ∧ padlen n = 64 * ((n + 8) / 64 + 1) ∧ nblocks n = padlen n / 64 ∧
    1 ≤ nblocks n ∧ n + 9 ≤ padlen n ∧ padlen n ≤ n + 72 ∧ (n < 2 ^ 61 → nblocks n ≤ 2 ^ 55 + 1)) ∧
  ([0, 3, 55, 56, 63, 64, 119, 120].map fun n => (zeroBytes n, padlen n, nblocks n)) =
    [(55, 64, 1), (52, 64, 1), (0, 64, 1), (63, 128, 2), (56, 128, 2), (55, 128, 2), (0, 128, 2), (63, 192, 3)]

/-- The padded string by position, and its blocks: what a command fetches as block `i` of a stream is block `i` of the
padded string, and it depends on no byte of the message outside the block (R114). -/
def Obligations.PaddedBytesByPosition : Prop :=
  (∀ (S : Bytes) (p : Nat), p < padlen S.length →
    (pad S).getD p 0 =
      if p < S.length then S.getD p 0
      else if p = S.length then 0x80
      else if p < padlen S.length - 8 then 0x00
      else (bytes64 (8 * S.length)).getD (p - (padlen S.length - 8)) 0) ∧
  (∀ (S : Bytes) (i : Nat), i < nblocks S.length → (padblock S i).length = 64 ∧
    ∀ t : Nat, t < 64 → (padblock S i).getD t 0 = (pad S).getD (64 * i + t) 0) ∧
  (∀ (S : ByteStream) (i : Nat), i < nblocks S.len → (streamBlock S i).toList = padblock (streamBytes S) i) ∧
  (∀ (S S' : Bytes) (i : Nat), S.length = S'.length →
    (∀ p : Nat, 64 * i ≤ p → p < min (64 * i + 64) S.length → S[p]? = S'[p]?) → padblock S i = padblock S' i)

/-- The properties of padding: length and length field, the `0x80` byte, injectivity, and which bit lengths whole bytes
reach (R118). -/
def Obligations.PaddingProperties : Prop :=
  (∀ S : Bytes, S.length < 2 ^ 61 →
    (pad S).length % 64 = 0 ∧ (pad S).drop ((pad S).length - 8) = bytes64 (8 * S.length) ∧
    (pad S)[S.length]? = some 0x80 ∧ (pad S).take S.length = S) ∧
  (∀ S T : Bytes, S.length < 2 ^ 61 → T.length < 2 ^ 61 → pad S = pad T → S = T) ∧
  (∀ n : Nat, 8 * n % 512 ≠ 447 ∧ 8 * n % 512 ≠ 511 ∧
    (8 * n % 512 ∈ [0, 440, 448, 504] ↔ n % 64 ∈ [0, 55, 56, 63]))

/-! Expansion and rounds -/

/-- The expansion of a block: native words, recurrence, mixed words (R131, R132, R133). -/
def Obligations.ExpansionOfBlock : Prop :=
  ∀ blk : Vector Byte 64,
    (∀ i : Nat, i < 16 → (expandBlock blk).1.getD i 0 =
      be32 (blk.getD (4 * i) 0) (blk.getD (4 * i + 1) 0) (blk.getD (4 * i + 2) 0) (blk.getD (4 * i + 3) 0)) ∧
    (∀ j : Nat, 16 ≤ j → j ≤ 67 → (expandBlock blk).1.getD j 0 =
      P1 ((expandBlock blk).1.getD (j - 16) 0 ^^^ (expandBlock blk).1.getD (j - 9) 0 ^^^
          rotl ((expandBlock blk).1.getD (j - 3) 0) 15) ^^^
        rotl ((expandBlock blk).1.getD (j - 13) 0) 7 ^^^ (expandBlock blk).1.getD (j - 6) 0) ∧
    (∀ j : Nat, j ≤ 63 → (expandBlock blk).2.getD j 0 =
      (expandBlock blk).1.getD j 0 ^^^ (expandBlock blk).1.getD (j + 4) 0)

/-- The round function; that for fixed index and words it is a bijection of the registers; its worked example (R143). -/
def Obligations.RoundIsBijective : Prop :=
  ∀ (j : Nat) (w wp : Word),
    (∀ x : Words8,
      sm3Round j x w wp =
        { a := add32 (add32 (add32 (FF j x.a x.b x.c) x.d)
            (rotl (add32 (add32 (rotl x.a 12) x.e) (TR j)) 7 ^^^ rotl x.a 12)) wp
          b := x.a
          c := rotl x.b 9
          d := x.c
          e := P0 (add32 (add32 (add32 (GG j x.e x.f x.g) x.h)
            (rotl (add32 (add32 (rotl x.a 12) x.e) (TR j)) 7)) w)
          f := x.e
          g := rotl x.f 19
          h := x.g }) ∧
    Function.Bijective (fun x : Words8 => sm3Round j x w wp) ∧
    sm3Round 0 IV 0x61626380 0x61626380 =
      ⟨0xb9edc12b, 0x7380166f, 0x29657292, 0x172442d7, 0xb2ad29f4, 0xa96f30bc, 0xc550b189, 0xe38dee4d⟩

/-- The 64 rounds are strictly sequential, indices 0 to 63, each with its own two words; compression is their feed-forward
exclusive or; `W[64..67]` do not enter (R140, R147). -/
def Obligations.CompressionIsSixtyFourRounds : Prop :=
  ∀ (state : Words8) (w : Vector Word 68) (wp : Vector Word 64),
    (∃ X : Nat → Words8, X 0 = state ∧
      (∀ j : Nat, j < 64 → X (j + 1) = sm3Round j (X j) (w.getD j 0) (wp.getD j 0)) ∧
      rounds64 state w wp = X 64) ∧
    compressBlock state w wp = xor8 state (rounds64 state w wp) ∧
    (∀ w' : Vector Word 68, (∀ j : Nat, j < 64 → w'.getD j 0 = w.getD j 0) →
      compressBlock state w' wp = compressBlock state w wp)

/-! Digest and HMAC of byte strings -/

/-- Chaining: the blocks of the padded string are absorbed in order from `IV`, each by its expansion and compression, and
the digest is the serialisation of the last state, 32 bytes (R161, R162, R164). -/
def Obligations.DigestChainsBlocksInOrder : Prop :=
  (∀ (v : Words8) (blk : Vector Byte 64), absorb v blk = compressBlock v (expandBlock blk).1 (expandBlock blk).2) ∧
  ∀ S : Bytes, S.length < 2 ^ 61 →
    (∃ v : Nat → Words8, v 0 = IV ∧
      (∀ i : Nat, i < nblocks S.length → v (i + 1) = absorb (v i) (blockOfBytes (padblock S i))) ∧
      chainState S = v (nblocks S.length)) ∧
    sm3 S = ser (chainState S) ∧ (sm3 S).length = 32

/-- The HMAC construction: the normalised key, the two padded keys, the blocks of the two streams, and the nested digest
(R181 to R186). -/
def Obligations.HmacConstruction : Prop :=
  ∀ msg key : Bytes,
    let innerKey := (normkey key).map (· ^^^ 0x36)
    let outerKey := (normkey key).map (· ^^^ 0x5c)
    normkey key = (if 64 < key.length then sm3 key ++ List.replicate 32 0x00
      else key ++ List.replicate (64 - key.length) 0x00) ∧
    innerKey.length = 64 ∧ outerKey.length = 64 ∧
    padblock (innerKey ++ msg) 0 = innerKey ∧
    (pad (innerKey ++ msg)).drop ((pad (innerKey ++ msg)).length - 8) = bytes64 (8 * (64 + msg.length)) ∧
    nblocks (outerKey ++ sm3 (innerKey ++ msg)).length = 2 ∧
    padblock (outerKey ++ sm3 (innerKey ++ msg)) 0 = outerKey ∧
    padblock (outerKey ++ sm3 (innerKey ++ msg)) 1 =
      sm3 (innerKey ++ msg) ++ [0x80] ++ List.replicate 23 0x00 ++ [0, 0, 0, 0, 0, 0, 3, 0] ∧
    hmac msg key = sm3 (outerKey ++ sm3 (innerKey ++ msg))

/-! The commands -/

/-- `NOP` changes nothing, locked or not (R201). -/
def Obligations.NopChangesNothing : Prop :=
  encode .nop = 0x00000000 ∧ ∀ s : State, exec .nop s = .next s

/-- `INIT` starts a computation and keeps everything else; on a locked block it is discarded (R202). -/
def Obligations.InitStartsComputation : Prop :=
  encode .init = 0x01000000 ∧
  (∀ s : State, s.err = false →
    exec .init s = .next { s with v := IV, blkidx := 0, j := 0, fin := false, done := false }) ∧
  (∀ s : State, s.err = true → exec .init s = .next s)

/-- `CLEAR` gives every piece of the block's state its reset value but for the descriptors, locked or not (R203). -/
def Obligations.ClearRestoresReset : Prop :=
  encode .clear = 0x02000000 ∧
  ∀ s : State, exec .clear s = .next
    { s with
      v := ⟨0x7380166f, 0x4914b2b9, 0x172442d7, 0xda8a0600, 0xa96f30bc, 0x163138aa, 0xe38dee4d, 0xb0fb0e4e⟩
      r := ⟨0, 0, 0, 0, 0, 0, 0, 0⟩
      w := Vector.replicate 68 0
      wp := Vector.replicate 64 0
      b := Vector.replicate 64 0
      k := Vector.replicate 64 0
      i := Vector.replicate 32 0
      j := 0
      blkidx := 0
      cmdreg := 0
      busy := false
      done := false
      err := false
      fin := false
      ecode := 0 }

/-- `PADBLK`: its faults in their priority, and otherwise the next block of the padded message, `FIN` on the last, and
`BLKIDX` advanced without overflow; nothing else changes (R116, R117). -/
def Obligations.PadblkProducesNextBlock : Prop :=
  encode .padblk = 0x10000000 ∧
  ∀ s : State, s.err = false →
    (2 ^ 61 ≤ s.msgLen.toNat →
      exec .padblk s = .next { s with err := true, ecode := 2, done := false }) ∧
    (s.msgLen.toNat < 2 ^ 61 → 2 ^ s.cfg.aw < s.msgBase.toNat + s.msgLen.toNat →
      exec .padblk s = .next { s with err := true, ecode := 3, done := false }) ∧
    (s.msgLen.toNat < 2 ^ 61 → s.msgBase.toNat + s.msgLen.toNat ≤ 2 ^ s.cfg.aw →
      nblocks s.msgLen.toNat ≤ s.blkidx.toNat →
      exec .padblk s = .next { s with err := true, ecode := 4, done := false }) ∧
    (s.msgLen.toNat < 2 ^ 61 → s.msgBase.toNat + s.msgLen.toNat ≤ 2 ^ s.cfg.aw →
      s.blkidx.toNat < nblocks s.msgLen.toNat →
      exec .padblk s = .next
        { s with
          b := blockOfBytes (padblock (messageOf s) s.blkidx.toNat)
          fin := decide (s.blkidx.toNat + 1 = nblocks s.msgLen.toNat)
          blkidx := s.blkidx + 1
          done := false } ∧
      (s.blkidx + 1).toNat = s.blkidx.toNat + 1 ∧
      (padblock (messageOf s) s.blkidx.toNat).length = 64)

/-- `EXPAND` writes all of `W` and `WP` from the block buffer and nothing else but `DONE`; twice is once; a zero buffer
gives zero files (R134). -/
def Obligations.ExpandFillsBothFiles : Prop :=
  encode .expand = 0x11000000 ∧
  (∀ s : State, s.err = false →
    exec .expand s = .next { s with w := (expandBlock s.b).1, wp := (expandBlock s.b).2, done := false } ∧
    andThen (exec .expand s) (exec .expand) = exec .expand s) ∧
  expandBlock (Vector.replicate 64 0) = (Vector.replicate 68 0, Vector.replicate 64 0)

/-- `LDREG` copies `V` to `R` and restarts the rounds; twice is once (R144). -/
def Obligations.LdregCopiesRunningState : Prop :=
  encode .ldreg = 0x12000000 ∧
  ∀ s : State, s.err = false →
    exec .ldreg s = .next { s with r := s.v, j := 0, done := false } ∧
    andThen (exec .ldreg s) (exec .ldreg) = exec .ldreg s

/-- `ROUND N`: `N` rounds with the indices from `J` on and `J` advanced by `N`; `E_SEQ` before any round if `J + N`
passes 64; `N` times `ROUND 1` otherwise; a word with a count outside 1..64 or a reserved bit is no command (R145). -/
def Obligations.RoundRunsNextRounds : Prop :=
  (∀ n : BitVec 7, encode (.round n) = 0x13000000 + n.setWidth 32) ∧
  (∀ cw : Word, cw.extractLsb' 24 8 = 0x13 →
    (cw.extractLsb' 7 17 ≠ 0 ∨ cw.extractLsb' 0 7 = 0 ∨ 65 ≤ (cw.extractLsb' 0 7).toNat) →
    ∃ e, decode cw = .error e) ∧
  ∀ (n : BitVec 7) (s : State), s.err = false →
    (64 < s.j.toNat + n.toNat →
      exec (.round n) s = .next { s with err := true, ecode := 4, done := false }) ∧
    (s.j.toNat + n.toNat ≤ 64 →
      ∃ X : Nat → Words8, X 0 = s.r ∧
        (∀ m : Nat, m < n.toNat →
          X (m + 1) = sm3Round (s.j.toNat + m) (X m) (s.w.getD (s.j.toNat + m) 0) (s.wp.getD (s.j.toNat + m) 0)) ∧
        exec (.round n) s =
          .next { s with r := X n.toNat, j := BitVec.ofNat 7 (s.j.toNat + n.toNat), done := false }) ∧
    (1 ≤ n.toNat → s.j.toNat + n.toNat ≤ 64 →
      execAll (List.replicate n.toNat (.round 1)) s = exec (.round n) s)

/-- `FEEDFWD` folds `R` into `V` and changes nothing else but `DONE`; twice in a row it restores `V`; with `R = 0` it
leaves `V` (R160). -/
def Obligations.FeedfwdFoldsOnce : Prop :=
  encode .feedfwd = 0x14000000 ∧
  ∀ s : State, s.err = false →
    exec .feedfwd s = .next { s with v := xor8 s.v s.r, done := false } ∧
    (∀ i : Fin 8, word8 (xor8 s.v s.r) i = word8 s.v i ^^^ word8 s.r i) ∧
    andThen (exec .feedfwd s) (exec .feedfwd) = .next { s with done := false } ∧
    (s.r = ⟨0, 0, 0, 0, 0, 0, 0, 0⟩ → exec .feedfwd s = .next { s with done := false })

/-- `COMPRESS` is the compression of `V` with the expansion files, whatever `R` and `J` were, and is exactly `LDREG`,
`ROUND 64`, `FEEDFWD` (R146). -/
def Obligations.CompressAbsorbsExpandedBlock : Prop :=
  encode .compress = 0x15000000 ∧
  ∀ s : State, s.err = false →
    exec .compress s = .next
      { s with v := compressBlock s.v s.w s.wp, r := rounds64 s.v s.w s.wp, j := 64, done := false } ∧
    execAll [.ldreg, .round 64, .feedfwd] s = exec .compress s

/-- `DIGEST`: its faults in their priority, and otherwise `V` takes the chained state of the message, so that its
serialisation is the digest, scratch is zero, `DONE` is set, and nothing else changes (R162, R164, R167, R168). It holds
of the hardware under two assumptions on the platform: the footprint is stable while `BUSY = 1` (U3, log entry 6) and
lies in plain memory (U4, log entry 9). That `CMDREG` keeps the word is the model's reading of R168 (log entry 13). -/
def Obligations.DigestComputesSm3 : Prop :=
  encode .digest = 0x20000000 ∧
  ∀ s : State, s.err = false →
    (2 ^ 61 ≤ s.msgLen.toNat →
      exec .digest s = .next { s with err := true, ecode := 2, done := false }) ∧
    (s.msgLen.toNat < 2 ^ 61 → 2 ^ s.cfg.aw < s.msgBase.toNat + s.msgLen.toNat →
      exec .digest s = .next { s with err := true, ecode := 3, done := false }) ∧
    (s.msgLen.toNat < 2 ^ 61 → s.msgBase.toNat + s.msgLen.toNat ≤ 2 ^ s.cfg.aw →
      exec .digest s = .next
        { s with
          v := chainState (messageOf s)
          r := ⟨0, 0, 0, 0, 0, 0, 0, 0⟩
          w := Vector.replicate 68 0
          wp := Vector.replicate 64 0
          b := Vector.replicate 64 0
          k := Vector.replicate 64 0
          i := Vector.replicate 32 0
          j := 0
          blkidx := 0
          fin := false
          done := true } ∧
      ser (chainState (messageOf s)) = sm3 (messageOf s))

/-- `HMAC`: its faults in their priority, and otherwise the serialisation of `V` is the HMAC of the message under the
key, scratch and transients are zero, `DONE` is set, and nothing else changes (R186, R187). It holds of the hardware under
two assumptions on the platform: the footprint is stable while `BUSY = 1` (U3, log entry 6) and lies in plain memory (U4,
log entry 9). That `CMDREG` keeps the word is the model's reading of R168 (log entry 13). -/
def Obligations.HmacComputesHmac : Prop :=
  encode .hmac = 0x21000000 ∧
  ∀ s : State, s.err = false →
    ((64 < s.keyLen.toNat ∧ 2 ^ 61 ≤ s.keyLen.toNat) ∨ 2 ^ 61 ≤ s.msgLen.toNat + 64 →
      exec .hmac s = .next { s with err := true, ecode := 2, done := false }) ∧
    (s.keyLen.toNat < 2 ^ 61 → s.msgLen.toNat + 64 < 2 ^ 61 →
      (2 ^ s.cfg.aw < s.keyBase.toNat + s.keyLen.toNat ∨ 2 ^ s.cfg.aw < s.msgBase.toNat + s.msgLen.toNat) →
      exec .hmac s = .next { s with err := true, ecode := 3, done := false }) ∧
    (s.keyLen.toNat < 2 ^ 61 → s.msgLen.toNat + 64 < 2 ^ 61 →
      s.keyBase.toNat + s.keyLen.toNat ≤ 2 ^ s.cfg.aw → s.msgBase.toNat + s.msgLen.toNat ≤ 2 ^ s.cfg.aw →
      ∃ v : Words8, ser v = hmac (messageOf s) (keyOf s) ∧
        exec .hmac s = .next
          { s with
            v := v
            r := ⟨0, 0, 0, 0, 0, 0, 0, 0⟩
            w := Vector.replicate 68 0
            wp := Vector.replicate 64 0
            b := Vector.replicate 64 0
            k := Vector.replicate 64 0
            i := Vector.replicate 32 0
            j := 0
            blkidx := 0
            fin := false
            done := true })

/-! Laws between the commands -/

/-- The macro command against the component commands: from any unlocked state with descriptors that raise no fault,
`INIT` and then, once a block, `PADBLK`, `EXPAND`, `COMPRESS` end with the `V` of `DIGEST`, and with `FIN`, `BLKIDX`,
`J`, `DONE` and the scratch as R169 says. It holds of the hardware under two assumptions on the platform: the message is
stable throughout (R60, R255; U3, log entry 6) and lies in plain memory (U4, log entry 9). -/
def Obligations.ComponentSequenceMatchesDigest : Prop :=
  ∀ s : State, s.err = false → s.digestFault = none →
    ∃ t d : State,
      execAll (digestByBlocks (nblocks s.msgLen.toNat)) s = .next t ∧ exec .digest s = .next d ∧
      t.v = d.v ∧ t.fin = true ∧ t.blkidx.toNat = nblocks s.msgLen.toNat ∧ t.j = 64 ∧ t.done = false ∧
      t.b = blockOfBytes (padblock (messageOf s) (nblocks s.msgLen.toNat - 1)) ∧
      (t.w, t.wp) = expandBlock t.b ∧
      t.r = rounds64 (absorbBlocks (messageOf s) (nblocks s.msgLen.toNat - 1) 0 IV) t.w t.wp ∧
      t = { s with v := t.v, r := t.r, w := t.w, wp := t.wp, b := t.b, j := t.j, blkidx := t.blkidx,
                   fin := t.fin, done := t.done }

/-- What `DIGEST` computes and whether it faults does not depend on `V`, scratch, counters, flags other than `ERR`, or
the key descriptors (R165 (a)). -/
def Obligations.DigestIgnoresScratch : Prop :=
  ∀ s s' : State, s.cfg = s'.cfg → s.mem = s'.mem → s.msgBase = s'.msgBase → s.msgLen = s'.msgLen →
    s.err = false → s'.err = false →
    ∃ t t' : State, exec .digest s = .next t ∧ exec .digest s' = .next t' ∧ t.err = t'.err ∧
      (t.err = false → t.v = t'.v ∧ t.done = t'.done ∧ t.fin = t'.fin ∧ t.j = t'.j ∧ t.blkidx = t'.blkidx)

/-- Keys: a key longer than 64 bytes is hashed first, trailing zero bytes below 64 do not matter, and the result is always
32 bytes (R188). -/
def Obligations.HmacKeyNormalisation : Prop :=
  (∀ msg key : Bytes, 64 < key.length → hmac msg key = hmac msg (sm3 key)) ∧
  (∀ msg key : Bytes, key.length < 64 → hmac msg (key ++ [0x00]) = hmac msg key) ∧
  (∀ msg key : Bytes, (hmac msg key).length = 32) ∧
  (∀ key : Bytes, (normkey key).length = 64)

/-! Faults and the locked state -/

/-- Which command raises which fault on an unlocked block, from the state before the command alone and in which priority:
`E_LEN` before `E_RANGE` before `E_SEQ`, and no fault but these (R222, R223, R224). -/
def Obligations.FaultConditions : Prop :=
  ∀ (i : Instr) (s : State), s.err = false →
    ∃ t : State, exec i s = .next t ∧
      (let lenCond : Prop :=
          ((i = .padblk ∨ i = .digest) ∧ 2 ^ 61 ≤ s.msgLen.toNat) ∨
          (i = .hmac ∧
            (2 ^ 61 ≤ s.msgLen.toNat + 64 ∨ (64 < s.keyLen.toNat ∧ 2 ^ 61 ≤ s.keyLen.toNat)))
       let rangeCond : Prop :=
          ((i = .padblk ∨ i = .digest ∨ i = .hmac) ∧ 2 ^ s.cfg.aw < s.msgBase.toNat + s.msgLen.toNat) ∨
          (i = .hmac ∧ 2 ^ s.cfg.aw < s.keyBase.toNat + s.keyLen.toNat)
       let seqCond : Prop :=
          (i = .padblk ∧ nblocks s.msgLen.toNat ≤ s.blkidx.toNat) ∨
          (∃ n, i = .round n ∧ 64 < s.j.toNat + n.toNat)
       (lenCond → t.err = true ∧ t.ecode = 2) ∧
       (¬lenCond → rangeCond → t.err = true ∧ t.ecode = 3) ∧
       (¬lenCond → ¬rangeCond → seqCond → t.err = true ∧ t.ecode = 4) ∧
       (¬lenCond → ¬rangeCond → ¬seqCond → t.err = false))

/-- Faults are precise: whenever a command of an unlocked block ends with `ERR` set, it changed nothing but `ERR`,
`ECODE`, `DONE`, and with it `BUSY` at the end of the complete step; and no memory byte had a part in it (R228, R229). -/
def Obligations.FaultsArePrecise : Prop :=
  ∀ s t : State, s.err = false → complete s = .next t → t.err = true →
    (∃ c : BitVec 4, 1 ≤ c.toNat ∧ c.toNat ≤ 4 ∧
      t = { s with err := true, ecode := c, done := false, busy := false }) ∧
    ∀ m : Memory, complete { s with mem := m } = .next { t with mem := m }

/-- A locked block discards every command word but `CLEAR`, legal or not, and register access goes on as on an unlocked
one (R230). That the two blocks may differ in `slack`, how long a word written to `CMD` stays pending, is the model's
schedule (log entry 3): the spec promises nothing of it (U8). -/
def Obligations.LockedBlockDiscards : Prop :=
  (∀ s : State, s.err = true → decode s.cmdreg ≠ .ok .clear → complete s = .next { s with busy := false }) ∧
  (∀ (s : State) (idx : BitVec 6), idx ≠ 2 → s.regRead idx = ({ s with err := false } : State).regRead idx) ∧
  (∀ (s : State) (idx : BitVec 6) (data : Word),
    (∃ slack : Nat,
      ({ s.regWrite idx data with err := false, slack := slack } : State) =
        ({ s with err := false } : State).regWrite idx data) ∧
    (idx ≠ 1 → ({ s.regWrite idx data with err := false } : State) = ({ s with err := false } : State).regWrite idx data))

/-- The only ways out of the locked state are `CLEAR` and reset; until one of them happens `ECODE` keeps the code of the
first fault (R231). -/
def Obligations.OnlyClearOrResetUnlocks : Prop :=
  ∀ s t : State, step s = .next t → s.err = true →
    (t.err = true ∧ t.ecode = s.ecode) ∨
    (s.busy = true ∧ decode s.cmdreg = .ok .clear ∧ t.err = false ∧ t.ecode = 0) ∨
    (s.script.head? = some .reset ∧ t.err = false ∧ t.ecode = 0)

/-- `DONE` is set by the completion of `DIGEST` or `HMAC` alone, and the completion of any command but `NOP` and these two
on an unlocked block clears it (R30; 92_eei_decisions.md D26). -/
def Obligations.MacroCommandsAloneSetDone : Prop :=
  (∀ s t : State, step s = .next t → s.done = false → t.done = true →
    s.busy = true ∧ s.err = false ∧ (decode s.cmdreg = .ok .digest ∨ decode s.cmdreg = .ok .hmac)) ∧
  (∀ s t : State, s.err = false → complete s = .next t →
    decode s.cmdreg ≠ .ok .nop → decode s.cmdreg ≠ .ok .digest → decode s.cmdreg ≠ .ok .hmac → t.done = false)

/-! The steps of the machine -/

/-- A step runs the decoded command: with a command pending and the CORE's turn come, the step is the command's meaning
and then `BUSY <- 0` (R200, R208). The rest is the model's choice: whose turn it is (`hostWaits`, `slack`: the schedule of
log entry 3), that the HOST moves otherwise and on an idle block (log entry 3), and that the word placed by
`withFetchWord` is run by the very next step (log entry 5). -/
def Obligations.StepRunsDecodedCommand : Prop :=
  (∀ (s : State) (i : Instr), s.busy = true → (s.hostWaits = true ∨ s.slack = 0) → decode s.cmdreg = .ok i →
    step s = andThen (exec i s) (fun t => .next { t with busy := false })) ∧
  (∀ (s : State) (i : Instr), i.WellFormed →
    step (s.withFetchWord 32 (encode i).toNat) =
      andThen (exec i (s.withFetchWord 32 (encode i).toNat)) (fun t => .next { t with busy := false })) ∧
  (∀ s : State, s.busy = true → s.hostWaits = false → 0 < s.slack →
    step s = ({ s with slack := s.slack - 1 } : State).hostMove) ∧
  (∀ s : State, s.busy = false → step s = s.hostMove)

/-- Accepting a command latches the word and raises `BUSY`, whatever the word is; nothing else of the block changes (R207).
The script and the two fields of the schedule, which say how long the command stays pending, are the model's (log
entry 3). -/
def Obligations.AcceptLatchesCommand : Prop :=
  ∀ (s : State) (cw : Word) (rest : List Transaction), s.busy = false → s.script = .write 1 cw :: rest →
    ∃ slack turn : Nat,
      step s = .next { s with script := rest, cmdreg := cw, busy := true, slack := slack, turn := turn }

/-- The HOST's register accesses as steps. A write, or a read of another register than `ID` and `STATUS`, is not performed
while a command is pending: the command completes, the access is still there with the descriptors unchanged, and it is
performed at the first step with `BUSY = 0` (R206). A read of `ID` or `STATUS` is performed at once (R205), and a `WAIT`
is one such read of `STATUS` a step, until one with `BUSY = 0` (R75). The model's choice in it: that the very next step
of a held access is the completion, and when the HOST moves while a command is pending (log entry 3); that the values
read are appended to `answers` (log entry 4). -/
def Obligations.RegisterAccessIsHeld : Prop :=
  (∀ (s : State) (x : Transaction) (rest : List Transaction), s.busy = true → s.script = x :: rest →
    ((∃ idx data, x = .write idx data) ∨ (∃ idx, x = .read idx ∧ idx ≠ 0 ∧ idx ≠ 2)) →
    ∃ t : State, step s = .next t ∧ complete s = .next t ∧ t.busy = false ∧ t.script = s.script ∧
      t.answers = s.answers ∧ t.msgBase = s.msgBase ∧ t.msgLen = s.msgLen ∧ t.keyBase = s.keyBase ∧
      t.keyLen = s.keyLen ∧
      (∀ idx data, x = .write idx data → step t = .next (({ t with script := rest } : State).regWrite idx data)) ∧
      (∀ idx, x = .read idx → step t = .next { t with script := rest, answers := s.answers ++ [t.regRead idx] })) ∧
  (∀ (s : State) (idx : BitVec 6) (rest : List Transaction), s.script = .read idx :: rest →
    (s.busy = false → step s = .next { s with script := rest, answers := s.answers ++ [s.regRead idx] }) ∧
    (s.busy = true → idx = 0 ∨ idx = 2 → 0 < s.slack →
      step s = .next
        { s with script := rest, answers := s.answers ++ [s.regRead idx], slack := s.slack - 1 })) ∧
  (∀ (s : State) (idx : BitVec 6) (data : Word) (rest : List Transaction), s.script = .write idx data :: rest →
    s.busy = false → step s = .next (({ s with script := rest } : State).regWrite idx data)) ∧
  (∀ (s : State) (rest : List Transaction), s.script = .wait :: rest →
    (s.busy = false → step s = .next { s with script := rest, answers := s.answers ++ [s.status] }) ∧
    (s.busy = true → 0 < s.slack →
      step s = .next { s with answers := s.answers ++ [s.status], slack := s.slack - 1 }) ∧
    (s.busy = true → s.slack = 0 → step s = complete s))

/-- With a command pending, the machine is idle again after at most one step more than the HOST has left to make, whatever
that number is, also where the HOST polls in a `WAIT`; the only other end is a HOST memory write the spec gives no step
(R206, R208). The bound is the model's schedule (log entry 3), and so are the two stops (log entries 6 and 8). -/
def Obligations.PendingCommandEnds : Prop :=
  ∀ s : State, s.busy = true →
    ∃ k : Nat, k ≤ s.slack + 1 ∧
      ((∃ t : State, Sys2Proof.core.run k s = .next t ∧ t.busy = false) ∨
       ((∃ addr byte, Transaction.store addr byte ∈ s.script) ∧
         (Sys2Proof.core.run k s = .fault .noSuchAddress ∨
          Sys2Proof.core.run k s = .refused .stabilityDutyBroken)))

/-- The machine stops on a HOST memory write at an address the memory does not have, and on one into the footprint of the
pending command, and on nothing else (R209, U3). The two stops and their names are the model's (log entries 6 and 8), and
so is when the HOST moves (log entry 3). -/
def Obligations.OnlyHostMemoryWritesStop : Prop :=
  (∀ (s : State) (f : Fault), step s = .fault f →
    ∃ addr byte rest, ((s.script = .mem addr byte :: rest ∧ s.busy = false) ∨ s.script = .store addr byte :: rest) ∧
      2 ^ s.cfg.aw ≤ addr) ∧
  (∀ (s : State) (r : Refusal), step s = .refused r →
    r = .stabilityDutyBroken ∧ s.busy = true ∧
    ∃ addr byte rest, s.script = .store addr byte :: rest ∧ s.inPendingFootprint addr = true) ∧
  (∀ (s : State) (addr : Nat) (byte : Byte) (rest : List Transaction), 2 ^ s.cfg.aw ≤ addr →
    (s.script = .mem addr byte :: rest → s.busy = false → step s = .fault .noSuchAddress) ∧
    (s.script = .store addr byte :: rest → s.busy = false ∨ 0 < s.slack → step s = .fault .noSuchAddress)) ∧
  (∀ (s : State) (addr : Nat) (byte : Byte) (rest : List Transaction), s.script = .store addr byte :: rest →
    s.busy = true → 0 < s.slack → addr < 2 ^ s.cfg.aw → s.inPendingFootprint addr = true →
    step s = .refused .stabilityDutyBroken)

/-- Every accepted command completes: the complete step of any state answers a next state with `BUSY = 0`, and it never
writes the message memory, the descriptors, the parameter or the HOST's side (R200, R261; R36, R52). -/
def Obligations.EveryCommandCompletesAndKeepsMemory : Prop :=
  ∀ s : State, ∃ t : State, complete s = .next t ∧ t.busy = false ∧
    t.mem = s.mem ∧ (∀ addr : Nat, memByte t.mem addr = memByte s.mem addr) ∧ t.cfg = s.cfg ∧
    t.msgBase = s.msgBase ∧ t.msgLen = s.msgLen ∧ t.keyBase = s.keyBase ∧ t.keyLen = s.keyLen ∧
    t.script = s.script ∧ t.answers = s.answers ∧ t.slack = s.slack ∧ t.turn = s.turn

/-- A command's effect depends on the memory through its footprint alone: replacing every byte outside the footprint
changes nothing in the result but those bytes themselves (R52). That the footprint of a faulting or discarded command is
empty is the model's reading of R229 and R230 (log entry 7). -/
def Obligations.FootprintDecidesEffect : Prop :=
  ∀ (i : Instr) (s t : State) (m : Memory),
    (∀ addr : Nat, s.inFootprint i addr = true → memByte m addr = memByte s.mem addr) →
    exec i s = .next t → exec i { s with mem := m } = .next { t with mem := m }

/-- A HOST memory write outside the pending command's footprint and the completion of that command commute: it does not
matter when in the interval an implementation reads its bytes (R60, R208, R209). The empty footprint of an illegal,
faulting or discarded command is log entry 7; that a write is allowed while a command is pending is R209 against R75, log
entry 11. -/
def Obligations.WriteOutsideFootprintCommutes : Prop :=
  ∀ (s : State) (addr : Nat) (byte : Byte), s.busy = true → addr < 2 ^ s.cfg.aw →
    s.inPendingFootprint addr = false →
    andThen (s.memWrite addr byte) complete = andThen (complete s) (fun t => t.memWrite addr byte) ∧
    ∃ t : State, andThen (s.memWrite addr byte) complete = .next t

/-- Message and key bytes influence neither the flags and counters, nor which fault is raised, nor which addresses are
read (R211). -/
def Obligations.ControlFlowIgnoresData : Prop :=
  ∀ (i : Instr) (s t : State) (m : Memory), exec i s = .next t →
    (∃ t' : State, exec i { s with mem := m } = .next t' ∧
      t'.err = t.err ∧ t'.ecode = t.ecode ∧ t'.done = t.done ∧ t'.fin = t.fin ∧ t'.busy = t.busy ∧ t'.j = t.j ∧
      t'.blkidx = t.blkidx) ∧
    (∀ addr : Nat, ({ s with mem := m } : State).inFootprint i addr = s.inFootprint i addr)

/-! Registers -/

/-- `STATUS` field by field; with `ID` it is the one register that is not held while a command is pending; a read of it
changes nothing of the block; and while a command is pending its bit 0 is 1 and the other bits are those from before the
accept step (R35). The HOST's record `answers`, which the clause on reads leaves aside, is the model's (log entry 4). -/
def Obligations.StatusLayout : Prop :=
  (∀ s : State,
    s.status.getLsbD 0 = s.busy ∧ s.status.getLsbD 1 = s.done ∧ s.status.getLsbD 2 = s.err ∧
    s.status.getLsbD 3 = s.fin ∧ s.status.extractLsb' 4 4 = s.ecode ∧ s.status.extractLsb' 8 7 = s.j ∧
    s.status.extractLsb' 15 17 = 0 ∧ s.regRead 2 = s.status) ∧
  (∀ idx : BitVec 6, heldWhileBusy (.read idx) = false ↔ idx = 0 ∨ idx = 2) ∧
  (∀ s t : State, s.perform (.read 2) = .next t → { t with answers := s.answers } = s) ∧
  (∀ (s : State) (cw : Word), s.busy = false →
    (s.accept cw).status = s.status ||| 1 ∧ s.status &&& 1 = 0)

/-- The read side of the register map (R205): the value at every index, each 64-bit register as its two halves; that a read
changes nothing of the block; and which reads are held while a command is pending. The HOST's record `answers`, which the
clause on reads leaves aside, is the model's (log entry 4); what the step does with a read is `RegisterAccessIsHeld`. -/
def Obligations.RegisterReads : Prop :=
  (∀ s : State,
    s.regRead 0 = 0x534D3301 ∧ s.regRead 1 = 0 ∧ s.regRead 2 = s.status ∧
    s.regRead 5 ++ s.regRead 4 = s.msgBase ∧ s.regRead 7 ++ s.regRead 6 = s.msgLen ∧
    s.regRead 9 ++ s.regRead 8 = s.keyBase ∧ s.regRead 11 ++ s.regRead 10 = s.keyLen ∧
    s.regRead 13 ++ s.regRead 12 = s.blkidx.setWidth 64 ∧
    (∀ i : Fin 8, s.regRead (BitVec.ofNat 6 (16 + i.val)) = word8 s.v i) ∧
    (∀ idx : BitVec 6, idx ∈ ([3, 14, 15] : List (BitVec 6)) ∨ 24 ≤ idx.toNat → s.regRead idx = 0)) ∧
  (∀ (s t : State) (idx : BitVec 6), s.perform (.read idx) = .next t → { t with answers := s.answers } = s) ∧
  (∀ idx : BitVec 6, heldWhileBusy (.read idx) = true ↔ idx ≠ 0 ∧ idx ≠ 2)

/-- The write side of the register map (R204): every write is held while a command is pending; a descriptor half takes the
datum, whole, and nothing else changes, locked or not; a write to `CMD` is the accept step; every other index ignores the
write. What the step does with a write is `RegisterAccessIsHeld`; the two fields of the schedule an accept writes are the
model's (log entry 3). -/
def Obligations.RegisterWrites : Prop :=
  (∀ (s : State) (data : Word),
    s.regWrite 4 data = { s with msgBase := s.msgBase.extractLsb' 32 32 ++ data } ∧
    s.regWrite 5 data = { s with msgBase := data ++ s.msgBase.extractLsb' 0 32 } ∧
    s.regWrite 6 data = { s with msgLen := s.msgLen.extractLsb' 32 32 ++ data } ∧
    s.regWrite 7 data = { s with msgLen := data ++ s.msgLen.extractLsb' 0 32 } ∧
    s.regWrite 8 data = { s with keyBase := s.keyBase.extractLsb' 32 32 ++ data } ∧
    s.regWrite 9 data = { s with keyBase := data ++ s.keyBase.extractLsb' 0 32 } ∧
    s.regWrite 10 data = { s with keyLen := s.keyLen.extractLsb' 32 32 ++ data } ∧
    s.regWrite 11 data = { s with keyLen := data ++ s.keyLen.extractLsb' 0 32 } ∧
    (∃ slack turn : Nat,
      s.regWrite 1 data = { s with cmdreg := data, busy := true, slack := slack, turn := turn }) ∧
    (∀ idx : BitVec 6, idx ≠ 1 → idx.toNat < 4 ∨ 12 ≤ idx.toNat → s.regWrite idx data = s)) ∧
  (∀ (s : State) (idx : BitVec 6) (data : Word),
    heldWhileBusy (.write idx data) = true ∧ s.perform (.write idx data) = .next (s.regWrite idx data))

/-- A descriptor half reads back what was last written to it, and a write to one half or one register shows in no other
register (R32, R36). -/
def Obligations.RegisterReadBack : Prop :=
  ∀ (s : State) (idx idx' : BitVec 6) (data : Word),
    (4 ≤ idx.toNat → idx.toNat ≤ 11 → (s.regWrite idx data).regRead idx = data) ∧
    (idx ≠ 1 → idx' ≠ idx → (s.regWrite idx data).regRead idx' = s.regRead idx')

/-- The digest bytes a HOST assembles from `DIGEST0` to `DIGEST7` are the serialisation of `V`, byte `4i + t` being bits
31-8t to 24-8t of `V[i]` (R163). -/
def Obligations.DigestRegistersSerialise : Prop :=
  ∀ s : State,
    (List.finRange 8).flatMap (fun i : Fin 8 => bytes32 (s.regRead (BitVec.ofNat 6 (16 + i.val)))) = ser s.v ∧
    (ser s.v).length = 32 ∧
    ∀ (i : Fin 8) (t : Nat), t < 4 →
      (ser s.v).getD (4 * i.val + t) 0 = (word8 s.v i).extractLsb' (24 - 8 * t) 8

/-! Memory -/

/-- A HOST memory write stores one byte and changes nothing else: every other address reads as before, and the
canonical form is kept (R209). The step makes it on an idle block for a `MEM` line and for the wider write of R209; while
a command is pending the HOST waits with a `MEM` line (R75) and is not kept from the wider write (R209). The canonical
form is the model's (log entry 2), and so are the two kinds of write (log entry 11) and when the HOST moves while a
command is pending (log entry 3). -/
def Obligations.MemoryWriteStoresOneByte : Prop :=
  (∀ (s : State) (addr : Nat) (byte : Byte), memWF s.mem → addr < 2 ^ s.cfg.aw →
    (s.busy = false ∨ s.inPendingFootprint addr = false) →
    ∃ m : Memory, s.memWrite addr byte = .next { s with mem := m } ∧ memByte m addr = byte ∧
      (∀ a : Nat, a ≠ addr → memByte m a = memByte s.mem a) ∧ memWF m) ∧
  (∀ (s : State) (addr : Nat) (byte : Byte) (rest : List Transaction),
    s.script = .mem addr byte :: rest ∨ s.script = .store addr byte :: rest → s.busy = false →
    step s = ({ s with script := rest } : State).memWrite addr byte) ∧
  (∀ (s : State) (addr : Nat) (byte : Byte) (rest : List Transaction), s.script = .mem addr byte :: rest →
    s.busy = true → s.hostWaits = true ∧ step s = complete s) ∧
  (∀ (s : State) (addr : Nat) (byte : Byte) (rest : List Transaction), s.script = .store addr byte :: rest →
    s.busy = true → s.hostWaits = false ∧ (s.slack = 0 → step s = complete s) ∧
      (0 < s.slack → step s = ({ s with script := rest, slack := s.slack - 1 } : State).memWrite addr byte))

/-- Two memories in canonical form that read alike at every address are equal, so equal memories are equal data
(the model's representation, log entry 2). -/
def Obligations.MemoryIsCanonical : Prop :=
  ∀ m m' : Memory, memWF m → memWF m' → (∀ a : Nat, memByte m a = memByte m' a) → m = m'

/-! Reset and the invariant -/

/-- The state after reset, register by register (R39). -/
def Obligations.ResetValues : Prop :=
  State.reset.v = ⟨0x7380166f, 0x4914b2b9, 0x172442d7, 0xda8a0600, 0xa96f30bc, 0x163138aa, 0xe38dee4d, 0xb0fb0e4e⟩ ∧
  State.reset.r = ⟨0, 0, 0, 0, 0, 0, 0, 0⟩ ∧ State.reset.w = Vector.replicate 68 0 ∧
  State.reset.wp = Vector.replicate 64 0 ∧ State.reset.b = Vector.replicate 64 0 ∧
  State.reset.k = Vector.replicate 64 0 ∧ State.reset.i = Vector.replicate 32 0 ∧ State.reset.j = 0 ∧
  State.reset.blkidx = 0 ∧ State.reset.cmdreg = 0 ∧ State.reset.busy = false ∧ State.reset.done = false ∧
  State.reset.err = false ∧ State.reset.fin = false ∧ State.reset.ecode = 0 ∧ State.reset.msgBase = 0 ∧
  State.reset.msgLen = 0 ∧ State.reset.keyBase = 0 ∧ State.reset.keyLen = 0

/-- The reset event gives the block the state of R39 from any state, and the message memory is not touched (R250). It is
not held while a command is pending: the HOST can make it before the command completes, and the command is then
abandoned, with none of its effects (R210, R251). Which of the two comes first is the model's schedule (log entry 3). -/
def Obligations.ResetEventRestoresBlock : Prop :=
  ∀ (s : State) (rest : List Transaction), s.script = .reset :: rest →
    s.hostMove = .next
      { State.reset with
        cfg := s.cfg, mem := s.mem, script := rest, answers := s.answers, slack := s.slack, turn := s.turn } ∧
    (s.busy = false → step s = s.hostMove) ∧
    (s.busy = true → s.hostWaits = false ∧ (s.slack = 0 → step s = complete s) ∧
      (0 < s.slack →
        step s = .next
          { State.reset with
            cfg := s.cfg, mem := s.mem, script := rest, answers := s.answers, slack := s.slack - 1,
            turn := s.turn }))

/-- The invariant holds after reset (R39). -/
def Obligations.ResetMeetsInvariant : Prop := Inv State.reset

/-- Every step of the machine, of the CORE or of the HOST, keeps the invariant, from every state that has it (R26, R27, R28,
R30, R220). -/
def Obligations.StepKeepsInvariant : Prop :=
  ∀ s t : State, Inv s → step s = .next t → Inv t
end

