-- ==== Sys2Proof/Laws/Decode.lean ====
section
/-! SUPPORT. The fields of a command word and the encoder's words as numbers, so that facts about encodings are linear
arithmetic; and the decoder case by case. -/

namespace Sys2Proof

theorem opcField_toNat (cw : Word) : (opcField cw).toNat = cw.toNat / 2 ^ 24 := by
  have := cw.isLt
  simp only [opcField, BitVec.extractLsb'_toNat, Nat.shiftRight_eq_div_pow]
  omega

theorem zeroFieldZ_toNat (cw : Word) : (zeroFieldZ cw).toNat = cw.toNat % 2 ^ 24 := by
  simp [zeroFieldZ, BitVec.extractLsb'_toNat]

theorem zeroFieldN_toNat (cw : Word) : (zeroFieldN cw).toNat = cw.toNat / 2 ^ 7 % 2 ^ 17 := by
  simp [zeroFieldN, BitVec.extractLsb'_toNat, Nat.shiftRight_eq_div_pow]

theorem countField_toNat (cw : Word) : (countField cw).toNat = cw.toNat % 2 ^ 7 := by
  simp [countField, BitVec.extractLsb'_toNat]

theorem formatZ_toNat (opc : BitVec 8) : (formatZ opc).toNat = opc.toNat * 2 ^ 24 := by
  have := opc.isLt
  simp only [formatZ, BitVec.toNat_shiftLeft, BitVec.toNat_setWidth, Nat.shiftLeft_eq]
  omega

theorem formatN_toNat (opc : BitVec 8) (n : BitVec 7) : (formatN opc n).toNat = opc.toNat * 2 ^ 24 + n.toNat := by
  have h := formatZ_toNat opc
  have hn : n.toNat < 2 ^ 24 := by have := n.isLt; omega
  unfold formatZ at h
  rw [formatN, BitVec.toNat_or, h, BitVec.toNat_setWidth, Nat.mod_eq_of_lt (by omega), Nat.mul_comm,
    ← Nat.two_pow_add_eq_or_of_lt hn]

/-- Every word is its three fields of format N. -/
theorem word_fields (cw : Word) :
    cw.toNat = (opcField cw).toNat * 2 ^ 24 + (zeroFieldN cw).toNat * 2 ^ 7 + (countField cw).toNat := by
  rw [opcField_toNat, zeroFieldN_toNat, countField_toNat]
  omega

/-- What a format Z opcode decodes to, and that it is the opcode of that command. -/
theorem decodeOpcodeZ_eq_some {opc : BitVec 8} {i : Instr} (h : decodeOpcodeZ opc = some i) :
    opcodeOf i = opc ∧ i.WellFormed ∧ encode i = formatZ opc := by
  unfold decodeOpcodeZ at h
  repeat' split at h
  all_goals first | (cases h; subst_vars; exact ⟨rfl, trivial, rfl⟩) | cases h

/-- Every command but `ROUND` decodes from its opcode. -/
theorem decodeOpcodeZ_opcodeOf {i : Instr} (h : ∀ n, i ≠ .round n) : decodeOpcodeZ (opcodeOf i) = some i := by
  cases i <;> first | rfl | exact absurd rfl (h _)

/-- The decoder, case by case: a format Z word, a format N word, or a rejection. -/
theorem decode_eq_ok_iff (cw : Word) (i : Instr) :
    decode cw = .ok i ↔
      (opcField cw ≠ 0x13 ∧ decodeOpcodeZ (opcField cw) = some i ∧ zeroFieldZ cw = 0) ∨
      (opcField cw = 0x13 ∧ zeroFieldN cw = 0 ∧ countField cw ≠ 0 ∧ (countField cw).toNat ≤ 64 ∧
        i = .round (countField cw)) := by
  unfold decode decodeRound
  by_cases h : opcField cw = 0x13
  · rw [if_pos h]
    by_cases h1 : zeroFieldN cw = 0
    · by_cases h2 : countField cw = 0
      · simp only [h1, h2, ne_eq, not_true_eq_false, if_false, if_true, reduceCtorEq, h, false_and, and_false, or_self]
      · by_cases h3 : 64 < (countField cw).toNat
        · have h4 : ¬(countField cw).toNat ≤ 64 := by omega
          simp only [h1, h2, h3, h4, ne_eq, not_true_eq_false, if_false, if_true, reduceCtorEq, h, false_and, and_false,
            or_self]
        · have h4 : (countField cw).toNat ≤ 64 := by omega
          simp only [h1, h2, h3, h4, ne_eq, not_true_eq_false, not_false_eq_true, if_false, Except.ok.injEq, h,
            false_and, true_and, false_or, eq_comm]
    · simp only [h1, ne_eq, not_false_eq_true, if_true, reduceCtorEq, h, not_true_eq_false, false_and, and_false, or_self]
  · rw [if_neg h]
    cases hd : decodeOpcodeZ (opcField cw) with
    | none => simp only [reduceCtorEq, h, false_and, and_false, or_self]
    | some i' =>
      by_cases h1 : zeroFieldZ cw = 0
      · simp only [h1, if_true, Except.ok.injEq, h, ne_eq, not_false_eq_true, Option.some.injEq, true_and, and_true,
          false_and, or_false]
      · simp only [h1, if_false, reduceCtorEq, h, and_false, false_and, or_self]

end Sys2Proof
end

