-- ==== Sys2Proof/Laws/Words.lean ====
section
/-! SUPPORT. Rotation bit by bit and what it distributes over; bytes and words as numbers; the eight words as a tuple. -/

namespace Sys2Proof.Machine

/-- Where rotation puts each bit (R92). -/
theorem rotl_getLsbD (x : Word) (n : Nat) {i : Nat} (hi : i < 32) :
    (rotl x n).getLsbD ((i + n % 32) % 32) = x.getLsbD i := by
  have hn : n % 32 < 32 := Nat.mod_lt _ (by omega)
  unfold rotl
  rw [BitVec.getLsbD_rotateLeft, Nat.mod_mod]
  by_cases h : (i + n % 32) % 32 < n % 32
  · simp only [h, decide_true, cond_true]
    congr 1; omega
  · simp only [h, decide_false, cond_false]
    have hlt : (i + n % 32) % 32 < 32 := Nat.mod_lt _ (by omega)
    simp only [show (i + n % 32) % 32 - n % 32 = i by omega, hlt, decide_true, Bool.true_and]

/-- Two words are equal if they agree at every rotated position. -/
theorem eq_of_rotated_bits {x y : Word} (n : Nat)
    (h : ∀ i, i < 32 → x.getLsbD ((i + n % 32) % 32) = y.getLsbD ((i + n % 32) % 32)) : x = y := by
  refine BitVec.eq_of_getLsbD_eq fun k hk => ?_
  have hn : n % 32 < 32 := Nat.mod_lt _ (by omega)
  have := h ((k + 32 - n % 32) % 32) (Nat.mod_lt _ (by omega))
  rwa [show ((k + 32 - n % 32) % 32 + n % 32) % 32 = k by omega] at this

theorem rotl_xor (x y : Word) (n : Nat) : rotl (x ^^^ y) n = rotl x n ^^^ rotl y n :=
  eq_of_rotated_bits n fun i hi => by
    rw [BitVec.getLsbD_xor, rotl_getLsbD _ _ hi, rotl_getLsbD _ _ hi, rotl_getLsbD _ _ hi, BitVec.getLsbD_xor]

theorem rotl_rotl (x : Word) (n m : Nat) : rotl (rotl x n) m = rotl x (n + m) :=
  eq_of_rotated_bits (n + m) fun i hi => by
    rw [rotl_getLsbD x (n + m) hi, show (i + (n + m) % 32) % 32 = ((i + n % 32) % 32 + m % 32) % 32 by omega,
      rotl_getLsbD _ _ (Nat.mod_lt _ (by omega)), rotl_getLsbD _ _ hi]

theorem rotl_mod (x : Word) (n : Nat) : rotl x (n % 32) = rotl x n := by rw [rotl, rotl, Nat.mod_mod]

theorem rotl_zero (x : Word) : rotl x 0 = x :=
  eq_of_rotated_bits 0 fun i hi => by rw [rotl_getLsbD x 0 hi]; congr 1; omega

theorem be32_toNat (b0 b1 b2 b3 : Byte) :
    (be32 b0 b1 b2 b3).toNat = b0.toNat * 2 ^ 24 + b1.toNat * 2 ^ 16 + b2.toNat * 2 ^ 8 + b3.toNat := by
  have := b0.isLt; have := b1.isLt; have := b2.isLt; have := b3.isLt
  rw [be32, BitVec.toNat_ofNat, Nat.mod_eq_of_lt (by omega)]

/-- A word is its four bytes. -/
theorem be32_bytes32 (w : Word) :
    be32 (w.extractLsb' 24 8) (w.extractLsb' 16 8) (w.extractLsb' 8 8) (w.extractLsb' 0 8) = w := by
  apply BitVec.eq_of_toNat_eq
  have := w.isLt
  simp only [be32_toNat, BitVec.extractLsb'_toNat, Nat.shiftRight_eq_div_pow]
  omega

/-- Reading a file below its end. -/
theorem vector_getD {α : Type} {n : Nat} (v : Vector α n) (d : α) {p : Nat} (h : p < n) : v.getD p d = v[p] := by
  simp [Vector.getD, h]

theorem ser_length (x : Words8) : (ser x).length = 32 := rfl

theorem bytes64_length (n : Nat) : (bytes64 n).length = 8 := by simp [bytes64]

theorem xor8_self_right (x y : Words8) : xor8 (xor8 x y) y = x := by
  simp [xor8]

end Sys2Proof.Machine
end

