-- ==== Sys2Proof/Laws/Padding.lean ====
section
/-! SUPPORT. Reading one element of the vectors the padding, the expansion and the algorithm layer build, so that no
proof unfolds them. -/

namespace Sys2Proof.Machine

/-- Byte `t` of a fetched block (R114). -/
theorem streamBlock_getElem (S : ByteStream) (i t : Nat) (h : t < 64) :
    (streamBlock S i)[t] = padByte S (64 * i + t) := by
  unfold streamBlock; simp

theorem blockOfBytes_getElem (S : Bytes) (t : Nat) (h : t < 64) : (blockOfBytes S)[t] = S.getD t 0 := by
  unfold blockOfBytes; simp

theorem streamBytes_length (S : ByteStream) : (streamBytes S).length = S.len := by simp [streamBytes]

theorem streamBytes_getD (S : ByteStream) {p : Nat} (h : p < S.len) : (streamBytes S).getD p 0 = S.byte p := by
  simp [streamBytes, h]

/-- What a fetch gives depends on the stream's length and on its bytes inside the block alone (R57, R114). -/
theorem streamBlock_congr {S S' : ByteStream} {i : Nat} (hlen : S.len = S'.len)
    (h : ∀ p, 64 * i ≤ p → p < 64 * i + 64 → p < S.len → S.byte p = S'.byte p) : streamBlock S i = streamBlock S' i := by
  refine Vector.ext fun t ht => ?_
  rw [streamBlock_getElem, streamBlock_getElem, padByte, padByte, hlen]
  split
  · exact h _ (by omega) (by omega) (by omega)
  · rfl

end Sys2Proof.Machine
end

