-- ==== Sys2Proof/Laws/Rounds.lean ====
section
/-! SUPPORT. The rounds and the recurrence of the expander, one step at a time. -/

namespace Sys2Proof.Machine

theorem runRounds_zero (w : Vector Word 68) (wp : Vector Word 64) (j : Nat) (x : Words8) :
    runRounds w wp 0 j x = x := by unfold runRounds; rfl

theorem runRounds_succ (w : Vector Word 68) (wp : Vector Word 64) (count j : Nat) (x : Words8) :
    runRounds w wp (count + 1) j x = runRounds w wp count (j + 1) (sm3Round j x (w.getD j 0) (wp.getD j 0)) := by
  rw [runRounds]

/-- Rounds in two parts are the rounds of both (R145). -/
theorem runRounds_add (w : Vector Word 68) (wp : Vector Word 64) (m n j : Nat) (x : Words8) :
    runRounds w wp (m + n) j x = runRounds w wp n (j + m) (runRounds w wp m j x) := by
  induction m generalizing j x with
  | zero => rw [Nat.zero_add, runRounds_zero, Nat.add_zero]
  | succ m ih => rw [Nat.succ_add, runRounds_succ, runRounds_succ, ih, Nat.add_right_comm, Nat.add_assoc]

theorem runRounds_last (w : Vector Word 68) (wp : Vector Word 64) (n j : Nat) (x : Words8) :
    runRounds w wp (n + 1) j x =
      sm3Round (j + n) (runRounds w wp n j x) (w.getD (j + n) 0) (wp.getD (j + n) 0) := by
  rw [runRounds_add, runRounds_succ, runRounds_zero]

theorem runRounds_congr {w w' : Vector Word 68} (wp : Vector Word 64) {n j : Nat}
    (h : ∀ p, j ≤ p → p < j + n → w'.getD p 0 = w.getD p 0) (x : Words8) :
    runRounds w' wp n j x = runRounds w wp n j x := by
  induction n generalizing j x with
  | zero => rw [runRounds_zero, runRounds_zero]
  | succ n ih =>
    rw [runRounds_succ, runRounds_succ, h j (by omega) (by omega), ih fun p h1 h2 => h p (by omega) (by omega)]

theorem extendWords_zero (ws : List Word) : extendWords 0 ws = ws := by rw [extendWords]

theorem extendWords_succ (count : Nat) (ws : List Word) :
    extendWords (count + 1) ws = extendWords count (ws ++ [nextWord ws]) := by rw [extendWords]

theorem extendWords_length (count : Nat) (ws : List Word) : (extendWords count ws).length = ws.length + count := by
  induction count generalizing ws with
  | zero => rw [extendWords_zero, Nat.add_zero]
  | succ n ih => rw [extendWords_succ, ih, List.length_append, List.length_singleton]; omega

/-- The recurrence keeps the words it started from. -/
theorem extendWords_keeps (count : Nat) (ws : List Word) {j : Nat} (h : j < ws.length) :
    (extendWords count ws).getD j 0 = ws.getD j 0 := by
  induction count generalizing ws with
  | zero => rw [extendWords_zero]
  | succ n ih =>
    rw [extendWords_succ, ih _ (by rw [List.length_append]; omega), List.getD_append _ _ _ _ h]

theorem expandW_getD (blk : Vector Byte 64) {j : Nat} (h : j < 68) :
    (expandW blk).getD j 0 = (extendWords 52 (nativeWords blk)).getD j 0 := by
  unfold expandW Vector.getD; simp [h]

theorem mixWords_getD (w : Vector Word 68) {j : Nat} (h : j < 64) :
    (mixWords w).getD j 0 = w.getD j 0 ^^^ w.getD (j + 4) 0 := by
  unfold mixWords Vector.getD
  simp [h, show j < 68 by omega, show j + 4 < 68 by omega]

end Sys2Proof.Machine
end

