-- ==== Sys2Proof/Laws/State.lean ====
section
/-! SUPPORT. One lemma per field per named update of the state: what the update writes, and that it keeps every other
field. No later proof unfolds a record update. -/

namespace Sys2Proof.Machine

namespace State

/-! The reset event (R250). -/

@[simp] theorem resetBlock_cfg (s : State) : (s.resetBlock).cfg = s.cfg := rfl
@[simp] theorem resetBlock_v (s : State) : (s.resetBlock).v = IV := rfl
@[simp] theorem resetBlock_r (s : State) : (s.resetBlock).r = zeroWords8 := rfl
@[simp] theorem resetBlock_w (s : State) : (s.resetBlock).w = Vector.replicate 68 0 := rfl
@[simp] theorem resetBlock_wp (s : State) : (s.resetBlock).wp = Vector.replicate 64 0 := rfl
@[simp] theorem resetBlock_b (s : State) : (s.resetBlock).b = Vector.replicate 64 0 := rfl
@[simp] theorem resetBlock_k (s : State) : (s.resetBlock).k = Vector.replicate 64 0 := rfl
@[simp] theorem resetBlock_i (s : State) : (s.resetBlock).i = Vector.replicate 32 0 := rfl
@[simp] theorem resetBlock_j (s : State) : (s.resetBlock).j = 0 := rfl
@[simp] theorem resetBlock_blkidx (s : State) : (s.resetBlock).blkidx = 0 := rfl
@[simp] theorem resetBlock_cmdreg (s : State) : (s.resetBlock).cmdreg = 0 := rfl
@[simp] theorem resetBlock_busy (s : State) : (s.resetBlock).busy = false := rfl
@[simp] theorem resetBlock_done (s : State) : (s.resetBlock).done = false := rfl
@[simp] theorem resetBlock_err (s : State) : (s.resetBlock).err = false := rfl
@[simp] theorem resetBlock_fin (s : State) : (s.resetBlock).fin = false := rfl
@[simp] theorem resetBlock_ecode (s : State) : (s.resetBlock).ecode = 0 := rfl
@[simp] theorem resetBlock_msgBase (s : State) : (s.resetBlock).msgBase = 0 := rfl
@[simp] theorem resetBlock_msgLen (s : State) : (s.resetBlock).msgLen = 0 := rfl
@[simp] theorem resetBlock_keyBase (s : State) : (s.resetBlock).keyBase = 0 := rfl
@[simp] theorem resetBlock_keyLen (s : State) : (s.resetBlock).keyLen = 0 := rfl
@[simp] theorem resetBlock_mem (s : State) : (s.resetBlock).mem = s.mem := rfl
@[simp] theorem resetBlock_script (s : State) : (s.resetBlock).script = s.script := rfl
@[simp] theorem resetBlock_answers (s : State) : (s.resetBlock).answers = s.answers := rfl
@[simp] theorem resetBlock_slack (s : State) : (s.resetBlock).slack = s.slack := rfl
@[simp] theorem resetBlock_turn (s : State) : (s.resetBlock).turn = s.turn := rfl

/-! `CLEAR` (R203). -/

@[simp] theorem clearBlock_cfg (s : State) : (s.clearBlock).cfg = s.cfg := rfl
@[simp] theorem clearBlock_v (s : State) : (s.clearBlock).v = IV := rfl
@[simp] theorem clearBlock_r (s : State) : (s.clearBlock).r = zeroWords8 := rfl
@[simp] theorem clearBlock_w (s : State) : (s.clearBlock).w = Vector.replicate 68 0 := rfl
@[simp] theorem clearBlock_wp (s : State) : (s.clearBlock).wp = Vector.replicate 64 0 := rfl
@[simp] theorem clearBlock_b (s : State) : (s.clearBlock).b = Vector.replicate 64 0 := rfl
@[simp] theorem clearBlock_k (s : State) : (s.clearBlock).k = Vector.replicate 64 0 := rfl
@[simp] theorem clearBlock_i (s : State) : (s.clearBlock).i = Vector.replicate 32 0 := rfl
@[simp] theorem clearBlock_j (s : State) : (s.clearBlock).j = 0 := rfl
@[simp] theorem clearBlock_blkidx (s : State) : (s.clearBlock).blkidx = 0 := rfl
@[simp] theorem clearBlock_cmdreg (s : State) : (s.clearBlock).cmdreg = 0 := rfl
@[simp] theorem clearBlock_busy (s : State) : (s.clearBlock).busy = false := rfl
@[simp] theorem clearBlock_done (s : State) : (s.clearBlock).done = false := rfl
@[simp] theorem clearBlock_err (s : State) : (s.clearBlock).err = false := rfl
@[simp] theorem clearBlock_fin (s : State) : (s.clearBlock).fin = false := rfl
@[simp] theorem clearBlock_ecode (s : State) : (s.clearBlock).ecode = 0 := rfl
@[simp] theorem clearBlock_msgBase (s : State) : (s.clearBlock).msgBase = s.msgBase := rfl
@[simp] theorem clearBlock_msgLen (s : State) : (s.clearBlock).msgLen = s.msgLen := rfl
@[simp] theorem clearBlock_keyBase (s : State) : (s.clearBlock).keyBase = s.keyBase := rfl
@[simp] theorem clearBlock_keyLen (s : State) : (s.clearBlock).keyLen = s.keyLen := rfl
@[simp] theorem clearBlock_mem (s : State) : (s.clearBlock).mem = s.mem := rfl
@[simp] theorem clearBlock_script (s : State) : (s.clearBlock).script = s.script := rfl
@[simp] theorem clearBlock_answers (s : State) : (s.clearBlock).answers = s.answers := rfl
@[simp] theorem clearBlock_slack (s : State) : (s.clearBlock).slack = s.slack := rfl
@[simp] theorem clearBlock_turn (s : State) : (s.clearBlock).turn = s.turn := rfl

/-! FINISH (R168). -/

@[simp] theorem finish_cfg (s : State) : (s.finish).cfg = s.cfg := rfl
@[simp] theorem finish_v (s : State) : (s.finish).v = s.v := rfl
@[simp] theorem finish_r (s : State) : (s.finish).r = zeroWords8 := rfl
@[simp] theorem finish_w (s : State) : (s.finish).w = Vector.replicate 68 0 := rfl
@[simp] theorem finish_wp (s : State) : (s.finish).wp = Vector.replicate 64 0 := rfl
@[simp] theorem finish_b (s : State) : (s.finish).b = Vector.replicate 64 0 := rfl
@[simp] theorem finish_k (s : State) : (s.finish).k = Vector.replicate 64 0 := rfl
@[simp] theorem finish_i (s : State) : (s.finish).i = Vector.replicate 32 0 := rfl
@[simp] theorem finish_j (s : State) : (s.finish).j = 0 := rfl
@[simp] theorem finish_blkidx (s : State) : (s.finish).blkidx = 0 := rfl
@[simp] theorem finish_cmdreg (s : State) : (s.finish).cmdreg = s.cmdreg := rfl
@[simp] theorem finish_busy (s : State) : (s.finish).busy = s.busy := rfl
@[simp] theorem finish_done (s : State) : (s.finish).done = true := rfl
@[simp] theorem finish_err (s : State) : (s.finish).err = s.err := rfl
@[simp] theorem finish_fin (s : State) : (s.finish).fin = false := rfl
@[simp] theorem finish_ecode (s : State) : (s.finish).ecode = s.ecode := rfl
@[simp] theorem finish_msgBase (s : State) : (s.finish).msgBase = s.msgBase := rfl
@[simp] theorem finish_msgLen (s : State) : (s.finish).msgLen = s.msgLen := rfl
@[simp] theorem finish_keyBase (s : State) : (s.finish).keyBase = s.keyBase := rfl
@[simp] theorem finish_keyLen (s : State) : (s.finish).keyLen = s.keyLen := rfl
@[simp] theorem finish_mem (s : State) : (s.finish).mem = s.mem := rfl
@[simp] theorem finish_script (s : State) : (s.finish).script = s.script := rfl
@[simp] theorem finish_answers (s : State) : (s.finish).answers = s.answers := rfl
@[simp] theorem finish_slack (s : State) : (s.finish).slack = s.slack := rfl
@[simp] theorem finish_turn (s : State) : (s.finish).turn = s.turn := rfl

/-! FETCH (R115). -/

@[simp] theorem fetch_cfg (s : State) (S : ByteStream) (n : Nat) : (s.fetch S n).cfg = s.cfg := by unfold fetch; rfl
@[simp] theorem fetch_v (s : State) (S : ByteStream) (n : Nat) : (s.fetch S n).v = s.v := by unfold fetch; rfl
@[simp] theorem fetch_r (s : State) (S : ByteStream) (n : Nat) : (s.fetch S n).r = s.r := by unfold fetch; rfl
@[simp] theorem fetch_w (s : State) (S : ByteStream) (n : Nat) : (s.fetch S n).w = s.w := by unfold fetch; rfl
@[simp] theorem fetch_wp (s : State) (S : ByteStream) (n : Nat) : (s.fetch S n).wp = s.wp := by unfold fetch; rfl
@[simp] theorem fetch_b (s : State) (S : ByteStream) (n : Nat) : (s.fetch S n).b = streamBlock S n := by unfold fetch; rfl
@[simp] theorem fetch_k (s : State) (S : ByteStream) (n : Nat) : (s.fetch S n).k = s.k := by unfold fetch; rfl
@[simp] theorem fetch_i (s : State) (S : ByteStream) (n : Nat) : (s.fetch S n).i = s.i := by unfold fetch; rfl
@[simp] theorem fetch_j (s : State) (S : ByteStream) (n : Nat) : (s.fetch S n).j = s.j := by unfold fetch; rfl
@[simp] theorem fetch_blkidx (s : State) (S : ByteStream) (n : Nat) : (s.fetch S n).blkidx = s.blkidx := by unfold fetch; rfl
@[simp] theorem fetch_cmdreg (s : State) (S : ByteStream) (n : Nat) : (s.fetch S n).cmdreg = s.cmdreg := by unfold fetch; rfl
@[simp] theorem fetch_busy (s : State) (S : ByteStream) (n : Nat) : (s.fetch S n).busy = s.busy := by unfold fetch; rfl
@[simp] theorem fetch_done (s : State) (S : ByteStream) (n : Nat) : (s.fetch S n).done = s.done := by unfold fetch; rfl
@[simp] theorem fetch_err (s : State) (S : ByteStream) (n : Nat) : (s.fetch S n).err = s.err := by unfold fetch; rfl
@[simp] theorem fetch_fin (s : State) (S : ByteStream) (n : Nat) : (s.fetch S n).fin = s.fin := by unfold fetch; rfl
@[simp] theorem fetch_ecode (s : State) (S : ByteStream) (n : Nat) : (s.fetch S n).ecode = s.ecode := by unfold fetch; rfl
@[simp] theorem fetch_msgBase (s : State) (S : ByteStream) (n : Nat) : (s.fetch S n).msgBase = s.msgBase := by unfold fetch; rfl
@[simp] theorem fetch_msgLen (s : State) (S : ByteStream) (n : Nat) : (s.fetch S n).msgLen = s.msgLen := by unfold fetch; rfl
@[simp] theorem fetch_keyBase (s : State) (S : ByteStream) (n : Nat) : (s.fetch S n).keyBase = s.keyBase := by unfold fetch; rfl
@[simp] theorem fetch_keyLen (s : State) (S : ByteStream) (n : Nat) : (s.fetch S n).keyLen = s.keyLen := by unfold fetch; rfl
@[simp] theorem fetch_mem (s : State) (S : ByteStream) (n : Nat) : (s.fetch S n).mem = s.mem := by unfold fetch; rfl
@[simp] theorem fetch_script (s : State) (S : ByteStream) (n : Nat) : (s.fetch S n).script = s.script := by unfold fetch; rfl
@[simp] theorem fetch_answers (s : State) (S : ByteStream) (n : Nat) : (s.fetch S n).answers = s.answers := by unfold fetch; rfl
@[simp] theorem fetch_slack (s : State) (S : ByteStream) (n : Nat) : (s.fetch S n).slack = s.slack := by unfold fetch; rfl
@[simp] theorem fetch_turn (s : State) (S : ByteStream) (n : Nat) : (s.fetch S n).turn = s.turn := by unfold fetch; rfl

/-! The expansion of the block buffer (R134). -/

@[simp] theorem expandBuffer_cfg (s : State) : (s.expandBuffer).cfg = s.cfg := by unfold expandBuffer; rfl
@[simp] theorem expandBuffer_v (s : State) : (s.expandBuffer).v = s.v := by unfold expandBuffer; rfl
@[simp] theorem expandBuffer_r (s : State) : (s.expandBuffer).r = s.r := by unfold expandBuffer; rfl
@[simp] theorem expandBuffer_w (s : State) : (s.expandBuffer).w = expandW s.b := by unfold expandBuffer; rfl
@[simp] theorem expandBuffer_wp (s : State) : (s.expandBuffer).wp = mixWords (expandW s.b) := by unfold expandBuffer; rfl
@[simp] theorem expandBuffer_b (s : State) : (s.expandBuffer).b = s.b := by unfold expandBuffer; rfl
@[simp] theorem expandBuffer_k (s : State) : (s.expandBuffer).k = s.k := by unfold expandBuffer; rfl
@[simp] theorem expandBuffer_i (s : State) : (s.expandBuffer).i = s.i := by unfold expandBuffer; rfl
@[simp] theorem expandBuffer_j (s : State) : (s.expandBuffer).j = s.j := by unfold expandBuffer; rfl
@[simp] theorem expandBuffer_blkidx (s : State) : (s.expandBuffer).blkidx = s.blkidx := by unfold expandBuffer; rfl
@[simp] theorem expandBuffer_cmdreg (s : State) : (s.expandBuffer).cmdreg = s.cmdreg := by unfold expandBuffer; rfl
@[simp] theorem expandBuffer_busy (s : State) : (s.expandBuffer).busy = s.busy := by unfold expandBuffer; rfl
@[simp] theorem expandBuffer_done (s : State) : (s.expandBuffer).done = s.done := by unfold expandBuffer; rfl
@[simp] theorem expandBuffer_err (s : State) : (s.expandBuffer).err = s.err := by unfold expandBuffer; rfl
@[simp] theorem expandBuffer_fin (s : State) : (s.expandBuffer).fin = s.fin := by unfold expandBuffer; rfl
@[simp] theorem expandBuffer_ecode (s : State) : (s.expandBuffer).ecode = s.ecode := by unfold expandBuffer; rfl
@[simp] theorem expandBuffer_msgBase (s : State) : (s.expandBuffer).msgBase = s.msgBase := by unfold expandBuffer; rfl
@[simp] theorem expandBuffer_msgLen (s : State) : (s.expandBuffer).msgLen = s.msgLen := by unfold expandBuffer; rfl
@[simp] theorem expandBuffer_keyBase (s : State) : (s.expandBuffer).keyBase = s.keyBase := by unfold expandBuffer; rfl
@[simp] theorem expandBuffer_keyLen (s : State) : (s.expandBuffer).keyLen = s.keyLen := by unfold expandBuffer; rfl
@[simp] theorem expandBuffer_mem (s : State) : (s.expandBuffer).mem = s.mem := by unfold expandBuffer; rfl
@[simp] theorem expandBuffer_script (s : State) : (s.expandBuffer).script = s.script := by unfold expandBuffer; rfl
@[simp] theorem expandBuffer_answers (s : State) : (s.expandBuffer).answers = s.answers := by unfold expandBuffer; rfl
@[simp] theorem expandBuffer_slack (s : State) : (s.expandBuffer).slack = s.slack := by unfold expandBuffer; rfl
@[simp] theorem expandBuffer_turn (s : State) : (s.expandBuffer).turn = s.turn := by unfold expandBuffer; rfl

/-! The load of the working registers (R144). -/

@[simp] theorem loadRegs_cfg (s : State) : (s.loadRegs).cfg = s.cfg := rfl
@[simp] theorem loadRegs_v (s : State) : (s.loadRegs).v = s.v := rfl
@[simp] theorem loadRegs_r (s : State) : (s.loadRegs).r = s.v := rfl
@[simp] theorem loadRegs_w (s : State) : (s.loadRegs).w = s.w := rfl
@[simp] theorem loadRegs_wp (s : State) : (s.loadRegs).wp = s.wp := rfl
@[simp] theorem loadRegs_b (s : State) : (s.loadRegs).b = s.b := rfl
@[simp] theorem loadRegs_k (s : State) : (s.loadRegs).k = s.k := rfl
@[simp] theorem loadRegs_i (s : State) : (s.loadRegs).i = s.i := rfl
@[simp] theorem loadRegs_j (s : State) : (s.loadRegs).j = 0 := rfl
@[simp] theorem loadRegs_blkidx (s : State) : (s.loadRegs).blkidx = s.blkidx := rfl
@[simp] theorem loadRegs_cmdreg (s : State) : (s.loadRegs).cmdreg = s.cmdreg := rfl
@[simp] theorem loadRegs_busy (s : State) : (s.loadRegs).busy = s.busy := rfl
@[simp] theorem loadRegs_done (s : State) : (s.loadRegs).done = s.done := rfl
@[simp] theorem loadRegs_err (s : State) : (s.loadRegs).err = s.err := rfl
@[simp] theorem loadRegs_fin (s : State) : (s.loadRegs).fin = s.fin := rfl
@[simp] theorem loadRegs_ecode (s : State) : (s.loadRegs).ecode = s.ecode := rfl
@[simp] theorem loadRegs_msgBase (s : State) : (s.loadRegs).msgBase = s.msgBase := rfl
@[simp] theorem loadRegs_msgLen (s : State) : (s.loadRegs).msgLen = s.msgLen := rfl
@[simp] theorem loadRegs_keyBase (s : State) : (s.loadRegs).keyBase = s.keyBase := rfl
@[simp] theorem loadRegs_keyLen (s : State) : (s.loadRegs).keyLen = s.keyLen := rfl
@[simp] theorem loadRegs_mem (s : State) : (s.loadRegs).mem = s.mem := rfl
@[simp] theorem loadRegs_script (s : State) : (s.loadRegs).script = s.script := rfl
@[simp] theorem loadRegs_answers (s : State) : (s.loadRegs).answers = s.answers := rfl
@[simp] theorem loadRegs_slack (s : State) : (s.loadRegs).slack = s.slack := rfl
@[simp] theorem loadRegs_turn (s : State) : (s.loadRegs).turn = s.turn := rfl

/-! Rounds (R145). -/

@[simp] theorem doRounds_cfg (s : State) (n : Nat) : (s.doRounds n).cfg = s.cfg := by unfold doRounds; rfl
@[simp] theorem doRounds_v (s : State) (n : Nat) : (s.doRounds n).v = s.v := by unfold doRounds; rfl
@[simp] theorem doRounds_r (s : State) (n : Nat) : (s.doRounds n).r = runRounds s.w s.wp n s.j.toNat s.r := by unfold doRounds; rfl
@[simp] theorem doRounds_w (s : State) (n : Nat) : (s.doRounds n).w = s.w := by unfold doRounds; rfl
@[simp] theorem doRounds_wp (s : State) (n : Nat) : (s.doRounds n).wp = s.wp := by unfold doRounds; rfl
@[simp] theorem doRounds_b (s : State) (n : Nat) : (s.doRounds n).b = s.b := by unfold doRounds; rfl
@[simp] theorem doRounds_k (s : State) (n : Nat) : (s.doRounds n).k = s.k := by unfold doRounds; rfl
@[simp] theorem doRounds_i (s : State) (n : Nat) : (s.doRounds n).i = s.i := by unfold doRounds; rfl
@[simp] theorem doRounds_j (s : State) (n : Nat) : (s.doRounds n).j = s.j + BitVec.ofNat 7 n := by unfold doRounds; rfl
@[simp] theorem doRounds_blkidx (s : State) (n : Nat) : (s.doRounds n).blkidx = s.blkidx := by unfold doRounds; rfl
@[simp] theorem doRounds_cmdreg (s : State) (n : Nat) : (s.doRounds n).cmdreg = s.cmdreg := by unfold doRounds; rfl
@[simp] theorem doRounds_busy (s : State) (n : Nat) : (s.doRounds n).busy = s.busy := by unfold doRounds; rfl
@[simp] theorem doRounds_done (s : State) (n : Nat) : (s.doRounds n).done = s.done := by unfold doRounds; rfl
@[simp] theorem doRounds_err (s : State) (n : Nat) : (s.doRounds n).err = s.err := by unfold doRounds; rfl
@[simp] theorem doRounds_fin (s : State) (n : Nat) : (s.doRounds n).fin = s.fin := by unfold doRounds; rfl
@[simp] theorem doRounds_ecode (s : State) (n : Nat) : (s.doRounds n).ecode = s.ecode := by unfold doRounds; rfl
@[simp] theorem doRounds_msgBase (s : State) (n : Nat) : (s.doRounds n).msgBase = s.msgBase := by unfold doRounds; rfl
@[simp] theorem doRounds_msgLen (s : State) (n : Nat) : (s.doRounds n).msgLen = s.msgLen := by unfold doRounds; rfl
@[simp] theorem doRounds_keyBase (s : State) (n : Nat) : (s.doRounds n).keyBase = s.keyBase := by unfold doRounds; rfl
@[simp] theorem doRounds_keyLen (s : State) (n : Nat) : (s.doRounds n).keyLen = s.keyLen := by unfold doRounds; rfl
@[simp] theorem doRounds_mem (s : State) (n : Nat) : (s.doRounds n).mem = s.mem := by unfold doRounds; rfl
@[simp] theorem doRounds_script (s : State) (n : Nat) : (s.doRounds n).script = s.script := by unfold doRounds; rfl
@[simp] theorem doRounds_answers (s : State) (n : Nat) : (s.doRounds n).answers = s.answers := by unfold doRounds; rfl
@[simp] theorem doRounds_slack (s : State) (n : Nat) : (s.doRounds n).slack = s.slack := by unfold doRounds; rfl
@[simp] theorem doRounds_turn (s : State) (n : Nat) : (s.doRounds n).turn = s.turn := by unfold doRounds; rfl

/-! The feed-forward (R160). -/

@[simp] theorem feedForward_cfg (s : State) : (s.feedForward).cfg = s.cfg := by unfold feedForward; rfl
@[simp] theorem feedForward_v (s : State) : (s.feedForward).v = xor8 s.v s.r := by unfold feedForward; rfl
@[simp] theorem feedForward_r (s : State) : (s.feedForward).r = s.r := by unfold feedForward; rfl
@[simp] theorem feedForward_w (s : State) : (s.feedForward).w = s.w := by unfold feedForward; rfl
@[simp] theorem feedForward_wp (s : State) : (s.feedForward).wp = s.wp := by unfold feedForward; rfl
@[simp] theorem feedForward_b (s : State) : (s.feedForward).b = s.b := by unfold feedForward; rfl
@[simp] theorem feedForward_k (s : State) : (s.feedForward).k = s.k := by unfold feedForward; rfl
@[simp] theorem feedForward_i (s : State) : (s.feedForward).i = s.i := by unfold feedForward; rfl
@[simp] theorem feedForward_j (s : State) : (s.feedForward).j = s.j := by unfold feedForward; rfl
@[simp] theorem feedForward_blkidx (s : State) : (s.feedForward).blkidx = s.blkidx := by unfold feedForward; rfl
@[simp] theorem feedForward_cmdreg (s : State) : (s.feedForward).cmdreg = s.cmdreg := by unfold feedForward; rfl
@[simp] theorem feedForward_busy (s : State) : (s.feedForward).busy = s.busy := by unfold feedForward; rfl
@[simp] theorem feedForward_done (s : State) : (s.feedForward).done = s.done := by unfold feedForward; rfl
@[simp] theorem feedForward_err (s : State) : (s.feedForward).err = s.err := by unfold feedForward; rfl
@[simp] theorem feedForward_fin (s : State) : (s.feedForward).fin = s.fin := by unfold feedForward; rfl
@[simp] theorem feedForward_ecode (s : State) : (s.feedForward).ecode = s.ecode := by unfold feedForward; rfl
@[simp] theorem feedForward_msgBase (s : State) : (s.feedForward).msgBase = s.msgBase := by unfold feedForward; rfl
@[simp] theorem feedForward_msgLen (s : State) : (s.feedForward).msgLen = s.msgLen := by unfold feedForward; rfl
@[simp] theorem feedForward_keyBase (s : State) : (s.feedForward).keyBase = s.keyBase := by unfold feedForward; rfl
@[simp] theorem feedForward_keyLen (s : State) : (s.feedForward).keyLen = s.keyLen := by unfold feedForward; rfl
@[simp] theorem feedForward_mem (s : State) : (s.feedForward).mem = s.mem := by unfold feedForward; rfl
@[simp] theorem feedForward_script (s : State) : (s.feedForward).script = s.script := by unfold feedForward; rfl
@[simp] theorem feedForward_answers (s : State) : (s.feedForward).answers = s.answers := by unfold feedForward; rfl
@[simp] theorem feedForward_slack (s : State) : (s.feedForward).slack = s.slack := by unfold feedForward; rfl
@[simp] theorem feedForward_turn (s : State) : (s.feedForward).turn = s.turn := by unfold feedForward; rfl

/-! The compression (R146). -/

@[simp] theorem compressBuffer_cfg (s : State) : (s.compressBuffer).cfg = s.cfg := by
  rw [compressBuffer, feedForward_cfg, doRounds_cfg, loadRegs_cfg]
@[simp] theorem compressBuffer_v (s : State) : (s.compressBuffer).v = compressBlock s.v s.w s.wp := by
  rw [compressBuffer, feedForward_v, doRounds_v, doRounds_r, loadRegs_v, loadRegs_w, loadRegs_wp, loadRegs_r, loadRegs_j]; rfl
@[simp] theorem compressBuffer_r (s : State) : (s.compressBuffer).r = rounds64 s.v s.w s.wp := by
  rw [compressBuffer, feedForward_r, doRounds_r, loadRegs_w, loadRegs_wp, loadRegs_r, loadRegs_j]; rfl
@[simp] theorem compressBuffer_w (s : State) : (s.compressBuffer).w = s.w := by
  rw [compressBuffer, feedForward_w, doRounds_w, loadRegs_w]
@[simp] theorem compressBuffer_wp (s : State) : (s.compressBuffer).wp = s.wp := by
  rw [compressBuffer, feedForward_wp, doRounds_wp, loadRegs_wp]
@[simp] theorem compressBuffer_b (s : State) : (s.compressBuffer).b = s.b := by
  rw [compressBuffer, feedForward_b, doRounds_b, loadRegs_b]
@[simp] theorem compressBuffer_k (s : State) : (s.compressBuffer).k = s.k := by
  rw [compressBuffer, feedForward_k, doRounds_k, loadRegs_k]
@[simp] theorem compressBuffer_i (s : State) : (s.compressBuffer).i = s.i := by
  rw [compressBuffer, feedForward_i, doRounds_i, loadRegs_i]
@[simp] theorem compressBuffer_j (s : State) : (s.compressBuffer).j = 64 := by
  rw [compressBuffer, feedForward_j, doRounds_j, loadRegs_j]; rfl
@[simp] theorem compressBuffer_blkidx (s : State) : (s.compressBuffer).blkidx = s.blkidx := by
  rw [compressBuffer, feedForward_blkidx, doRounds_blkidx, loadRegs_blkidx]
@[simp] theorem compressBuffer_cmdreg (s : State) : (s.compressBuffer).cmdreg = s.cmdreg := by
  rw [compressBuffer, feedForward_cmdreg, doRounds_cmdreg, loadRegs_cmdreg]
@[simp] theorem compressBuffer_busy (s : State) : (s.compressBuffer).busy = s.busy := by
  rw [compressBuffer, feedForward_busy, doRounds_busy, loadRegs_busy]
@[simp] theorem compressBuffer_done (s : State) : (s.compressBuffer).done = s.done := by
  rw [compressBuffer, feedForward_done, doRounds_done, loadRegs_done]
@[simp] theorem compressBuffer_err (s : State) : (s.compressBuffer).err = s.err := by
  rw [compressBuffer, feedForward_err, doRounds_err, loadRegs_err]
@[simp] theorem compressBuffer_fin (s : State) : (s.compressBuffer).fin = s.fin := by
  rw [compressBuffer, feedForward_fin, doRounds_fin, loadRegs_fin]
@[simp] theorem compressBuffer_ecode (s : State) : (s.compressBuffer).ecode = s.ecode := by
  rw [compressBuffer, feedForward_ecode, doRounds_ecode, loadRegs_ecode]
@[simp] theorem compressBuffer_msgBase (s : State) : (s.compressBuffer).msgBase = s.msgBase := by
  rw [compressBuffer, feedForward_msgBase, doRounds_msgBase, loadRegs_msgBase]
@[simp] theorem compressBuffer_msgLen (s : State) : (s.compressBuffer).msgLen = s.msgLen := by
  rw [compressBuffer, feedForward_msgLen, doRounds_msgLen, loadRegs_msgLen]
@[simp] theorem compressBuffer_keyBase (s : State) : (s.compressBuffer).keyBase = s.keyBase := by
  rw [compressBuffer, feedForward_keyBase, doRounds_keyBase, loadRegs_keyBase]
@[simp] theorem compressBuffer_keyLen (s : State) : (s.compressBuffer).keyLen = s.keyLen := by
  rw [compressBuffer, feedForward_keyLen, doRounds_keyLen, loadRegs_keyLen]
@[simp] theorem compressBuffer_mem (s : State) : (s.compressBuffer).mem = s.mem := by
  rw [compressBuffer, feedForward_mem, doRounds_mem, loadRegs_mem]
@[simp] theorem compressBuffer_script (s : State) : (s.compressBuffer).script = s.script := by
  rw [compressBuffer, feedForward_script, doRounds_script, loadRegs_script]
@[simp] theorem compressBuffer_answers (s : State) : (s.compressBuffer).answers = s.answers := by
  rw [compressBuffer, feedForward_answers, doRounds_answers, loadRegs_answers]
@[simp] theorem compressBuffer_slack (s : State) : (s.compressBuffer).slack = s.slack := by
  rw [compressBuffer, feedForward_slack, doRounds_slack, loadRegs_slack]
@[simp] theorem compressBuffer_turn (s : State) : (s.compressBuffer).turn = s.turn := by
  rw [compressBuffer, feedForward_turn, doRounds_turn, loadRegs_turn]

/-! `DONE <- 0` (R30). -/

@[simp] theorem clearDone_cfg (s : State) : (s.clearDone).cfg = s.cfg := rfl
@[simp] theorem clearDone_v (s : State) : (s.clearDone).v = s.v := rfl
@[simp] theorem clearDone_r (s : State) : (s.clearDone).r = s.r := rfl
@[simp] theorem clearDone_w (s : State) : (s.clearDone).w = s.w := rfl
@[simp] theorem clearDone_wp (s : State) : (s.clearDone).wp = s.wp := rfl
@[simp] theorem clearDone_b (s : State) : (s.clearDone).b = s.b := rfl
@[simp] theorem clearDone_k (s : State) : (s.clearDone).k = s.k := rfl
@[simp] theorem clearDone_i (s : State) : (s.clearDone).i = s.i := rfl
@[simp] theorem clearDone_j (s : State) : (s.clearDone).j = s.j := rfl
@[simp] theorem clearDone_blkidx (s : State) : (s.clearDone).blkidx = s.blkidx := rfl
@[simp] theorem clearDone_cmdreg (s : State) : (s.clearDone).cmdreg = s.cmdreg := rfl
@[simp] theorem clearDone_busy (s : State) : (s.clearDone).busy = s.busy := rfl
@[simp] theorem clearDone_done (s : State) : (s.clearDone).done = false := rfl
@[simp] theorem clearDone_err (s : State) : (s.clearDone).err = s.err := rfl
@[simp] theorem clearDone_fin (s : State) : (s.clearDone).fin = s.fin := rfl
@[simp] theorem clearDone_ecode (s : State) : (s.clearDone).ecode = s.ecode := rfl
@[simp] theorem clearDone_msgBase (s : State) : (s.clearDone).msgBase = s.msgBase := rfl
@[simp] theorem clearDone_msgLen (s : State) : (s.clearDone).msgLen = s.msgLen := rfl
@[simp] theorem clearDone_keyBase (s : State) : (s.clearDone).keyBase = s.keyBase := rfl
@[simp] theorem clearDone_keyLen (s : State) : (s.clearDone).keyLen = s.keyLen := rfl
@[simp] theorem clearDone_mem (s : State) : (s.clearDone).mem = s.mem := rfl
@[simp] theorem clearDone_script (s : State) : (s.clearDone).script = s.script := rfl
@[simp] theorem clearDone_answers (s : State) : (s.clearDone).answers = s.answers := rfl
@[simp] theorem clearDone_slack (s : State) : (s.clearDone).slack = s.slack := rfl
@[simp] theorem clearDone_turn (s : State) : (s.clearDone).turn = s.turn := rfl

/-! `FIN <- f` (R30). -/

@[simp] theorem setFin_cfg (s : State) (f : Bool) : (s.setFin f).cfg = s.cfg := rfl
@[simp] theorem setFin_v (s : State) (f : Bool) : (s.setFin f).v = s.v := rfl
@[simp] theorem setFin_r (s : State) (f : Bool) : (s.setFin f).r = s.r := rfl
@[simp] theorem setFin_w (s : State) (f : Bool) : (s.setFin f).w = s.w := rfl
@[simp] theorem setFin_wp (s : State) (f : Bool) : (s.setFin f).wp = s.wp := rfl
@[simp] theorem setFin_b (s : State) (f : Bool) : (s.setFin f).b = s.b := rfl
@[simp] theorem setFin_k (s : State) (f : Bool) : (s.setFin f).k = s.k := rfl
@[simp] theorem setFin_i (s : State) (f : Bool) : (s.setFin f).i = s.i := rfl
@[simp] theorem setFin_j (s : State) (f : Bool) : (s.setFin f).j = s.j := rfl
@[simp] theorem setFin_blkidx (s : State) (f : Bool) : (s.setFin f).blkidx = s.blkidx := rfl
@[simp] theorem setFin_cmdreg (s : State) (f : Bool) : (s.setFin f).cmdreg = s.cmdreg := rfl
@[simp] theorem setFin_busy (s : State) (f : Bool) : (s.setFin f).busy = s.busy := rfl
@[simp] theorem setFin_done (s : State) (f : Bool) : (s.setFin f).done = s.done := rfl
@[simp] theorem setFin_err (s : State) (f : Bool) : (s.setFin f).err = s.err := rfl
@[simp] theorem setFin_fin (s : State) (f : Bool) : (s.setFin f).fin = f := rfl
@[simp] theorem setFin_ecode (s : State) (f : Bool) : (s.setFin f).ecode = s.ecode := rfl
@[simp] theorem setFin_msgBase (s : State) (f : Bool) : (s.setFin f).msgBase = s.msgBase := rfl
@[simp] theorem setFin_msgLen (s : State) (f : Bool) : (s.setFin f).msgLen = s.msgLen := rfl
@[simp] theorem setFin_keyBase (s : State) (f : Bool) : (s.setFin f).keyBase = s.keyBase := rfl
@[simp] theorem setFin_keyLen (s : State) (f : Bool) : (s.setFin f).keyLen = s.keyLen := rfl
@[simp] theorem setFin_mem (s : State) (f : Bool) : (s.setFin f).mem = s.mem := rfl
@[simp] theorem setFin_script (s : State) (f : Bool) : (s.setFin f).script = s.script := rfl
@[simp] theorem setFin_answers (s : State) (f : Bool) : (s.setFin f).answers = s.answers := rfl
@[simp] theorem setFin_slack (s : State) (f : Bool) : (s.setFin f).slack = s.slack := rfl
@[simp] theorem setFin_turn (s : State) (f : Bool) : (s.setFin f).turn = s.turn := rfl

/-! The accept step (R207). -/

@[simp] theorem accept_cfg (s : State) (cw : Word) : (s.accept cw).cfg = s.cfg := rfl
@[simp] theorem accept_v (s : State) (cw : Word) : (s.accept cw).v = s.v := rfl
@[simp] theorem accept_r (s : State) (cw : Word) : (s.accept cw).r = s.r := rfl
@[simp] theorem accept_w (s : State) (cw : Word) : (s.accept cw).w = s.w := rfl
@[simp] theorem accept_wp (s : State) (cw : Word) : (s.accept cw).wp = s.wp := rfl
@[simp] theorem accept_b (s : State) (cw : Word) : (s.accept cw).b = s.b := rfl
@[simp] theorem accept_k (s : State) (cw : Word) : (s.accept cw).k = s.k := rfl
@[simp] theorem accept_i (s : State) (cw : Word) : (s.accept cw).i = s.i := rfl
@[simp] theorem accept_j (s : State) (cw : Word) : (s.accept cw).j = s.j := rfl
@[simp] theorem accept_blkidx (s : State) (cw : Word) : (s.accept cw).blkidx = s.blkidx := rfl
@[simp] theorem accept_cmdreg (s : State) (cw : Word) : (s.accept cw).cmdreg = cw := rfl
@[simp] theorem accept_busy (s : State) (cw : Word) : (s.accept cw).busy = true := rfl
@[simp] theorem accept_done (s : State) (cw : Word) : (s.accept cw).done = s.done := rfl
@[simp] theorem accept_err (s : State) (cw : Word) : (s.accept cw).err = s.err := rfl
@[simp] theorem accept_fin (s : State) (cw : Word) : (s.accept cw).fin = s.fin := rfl
@[simp] theorem accept_ecode (s : State) (cw : Word) : (s.accept cw).ecode = s.ecode := rfl
@[simp] theorem accept_msgBase (s : State) (cw : Word) : (s.accept cw).msgBase = s.msgBase := rfl
@[simp] theorem accept_msgLen (s : State) (cw : Word) : (s.accept cw).msgLen = s.msgLen := rfl
@[simp] theorem accept_keyBase (s : State) (cw : Word) : (s.accept cw).keyBase = s.keyBase := rfl
@[simp] theorem accept_keyLen (s : State) (cw : Word) : (s.accept cw).keyLen = s.keyLen := rfl
@[simp] theorem accept_mem (s : State) (cw : Word) : (s.accept cw).mem = s.mem := rfl
@[simp] theorem accept_script (s : State) (cw : Word) : (s.accept cw).script = s.script := rfl
@[simp] theorem accept_answers (s : State) (cw : Word) : (s.accept cw).answers = s.answers := rfl
@[simp] theorem accept_slack (s : State) (cw : Word) : (s.accept cw).slack = Config.pendingSteps s cw := rfl
@[simp] theorem accept_turn (s : State) (cw : Word) : (s.accept cw).turn = s.turn + 1 := rfl

/-! One step of the HOST used up (log entry 3). -/

@[simp] theorem spend_cfg (s : State) : (s.spend).cfg = s.cfg := rfl
@[simp] theorem spend_v (s : State) : (s.spend).v = s.v := rfl
@[simp] theorem spend_r (s : State) : (s.spend).r = s.r := rfl
@[simp] theorem spend_w (s : State) : (s.spend).w = s.w := rfl
@[simp] theorem spend_wp (s : State) : (s.spend).wp = s.wp := rfl
@[simp] theorem spend_b (s : State) : (s.spend).b = s.b := rfl
@[simp] theorem spend_k (s : State) : (s.spend).k = s.k := rfl
@[simp] theorem spend_i (s : State) : (s.spend).i = s.i := rfl
@[simp] theorem spend_j (s : State) : (s.spend).j = s.j := rfl
@[simp] theorem spend_blkidx (s : State) : (s.spend).blkidx = s.blkidx := rfl
@[simp] theorem spend_cmdreg (s : State) : (s.spend).cmdreg = s.cmdreg := rfl
@[simp] theorem spend_busy (s : State) : (s.spend).busy = s.busy := rfl
@[simp] theorem spend_done (s : State) : (s.spend).done = s.done := rfl
@[simp] theorem spend_err (s : State) : (s.spend).err = s.err := rfl
@[simp] theorem spend_fin (s : State) : (s.spend).fin = s.fin := rfl
@[simp] theorem spend_ecode (s : State) : (s.spend).ecode = s.ecode := rfl
@[simp] theorem spend_msgBase (s : State) : (s.spend).msgBase = s.msgBase := rfl
@[simp] theorem spend_msgLen (s : State) : (s.spend).msgLen = s.msgLen := rfl
@[simp] theorem spend_keyBase (s : State) : (s.spend).keyBase = s.keyBase := rfl
@[simp] theorem spend_keyLen (s : State) : (s.spend).keyLen = s.keyLen := rfl
@[simp] theorem spend_mem (s : State) : (s.spend).mem = s.mem := rfl
@[simp] theorem spend_script (s : State) : (s.spend).script = s.script := rfl
@[simp] theorem spend_answers (s : State) : (s.spend).answers = s.answers := rfl
@[simp] theorem spend_slack (s : State) : (s.spend).slack = s.slack - 1 := rfl
@[simp] theorem spend_turn (s : State) : (s.spend).turn = s.turn := rfl

/-! A register read (R205). -/

@[simp] theorem readReg_cfg (s : State) (idx : BitVec 6) : (s.readReg idx).cfg = s.cfg := rfl
@[simp] theorem readReg_v (s : State) (idx : BitVec 6) : (s.readReg idx).v = s.v := rfl
@[simp] theorem readReg_r (s : State) (idx : BitVec 6) : (s.readReg idx).r = s.r := rfl
@[simp] theorem readReg_w (s : State) (idx : BitVec 6) : (s.readReg idx).w = s.w := rfl
@[simp] theorem readReg_wp (s : State) (idx : BitVec 6) : (s.readReg idx).wp = s.wp := rfl
@[simp] theorem readReg_b (s : State) (idx : BitVec 6) : (s.readReg idx).b = s.b := rfl
@[simp] theorem readReg_k (s : State) (idx : BitVec 6) : (s.readReg idx).k = s.k := rfl
@[simp] theorem readReg_i (s : State) (idx : BitVec 6) : (s.readReg idx).i = s.i := rfl
@[simp] theorem readReg_j (s : State) (idx : BitVec 6) : (s.readReg idx).j = s.j := rfl
@[simp] theorem readReg_blkidx (s : State) (idx : BitVec 6) : (s.readReg idx).blkidx = s.blkidx := rfl
@[simp] theorem readReg_cmdreg (s : State) (idx : BitVec 6) : (s.readReg idx).cmdreg = s.cmdreg := rfl
@[simp] theorem readReg_busy (s : State) (idx : BitVec 6) : (s.readReg idx).busy = s.busy := rfl
@[simp] theorem readReg_done (s : State) (idx : BitVec 6) : (s.readReg idx).done = s.done := rfl
@[simp] theorem readReg_err (s : State) (idx : BitVec 6) : (s.readReg idx).err = s.err := rfl
@[simp] theorem readReg_fin (s : State) (idx : BitVec 6) : (s.readReg idx).fin = s.fin := rfl
@[simp] theorem readReg_ecode (s : State) (idx : BitVec 6) : (s.readReg idx).ecode = s.ecode := rfl
@[simp] theorem readReg_msgBase (s : State) (idx : BitVec 6) : (s.readReg idx).msgBase = s.msgBase := rfl
@[simp] theorem readReg_msgLen (s : State) (idx : BitVec 6) : (s.readReg idx).msgLen = s.msgLen := rfl
@[simp] theorem readReg_keyBase (s : State) (idx : BitVec 6) : (s.readReg idx).keyBase = s.keyBase := rfl
@[simp] theorem readReg_keyLen (s : State) (idx : BitVec 6) : (s.readReg idx).keyLen = s.keyLen := rfl
@[simp] theorem readReg_mem (s : State) (idx : BitVec 6) : (s.readReg idx).mem = s.mem := rfl
@[simp] theorem readReg_script (s : State) (idx : BitVec 6) : (s.readReg idx).script = s.script := rfl
@[simp] theorem readReg_answers (s : State) (idx : BitVec 6) : (s.readReg idx).answers = s.answers ++ [s.regRead idx] := rfl
@[simp] theorem readReg_slack (s : State) (idx : BitVec 6) : (s.readReg idx).slack = s.slack := rfl
@[simp] theorem readReg_turn (s : State) (idx : BitVec 6) : (s.readReg idx).turn = s.turn := rfl

/-! Fault entry (R228): `ERR`, `ECODE`, `DONE` and nothing else. -/

@[simp] theorem raise_cfg (s : State) (c : FaultCode) : (s.raise c).cfg = s.cfg := by unfold raise; split <;> rfl
@[simp] theorem raise_v (s : State) (c : FaultCode) : (s.raise c).v = s.v := by unfold raise; split <;> rfl
@[simp] theorem raise_r (s : State) (c : FaultCode) : (s.raise c).r = s.r := by unfold raise; split <;> rfl
@[simp] theorem raise_w (s : State) (c : FaultCode) : (s.raise c).w = s.w := by unfold raise; split <;> rfl
@[simp] theorem raise_wp (s : State) (c : FaultCode) : (s.raise c).wp = s.wp := by unfold raise; split <;> rfl
@[simp] theorem raise_b (s : State) (c : FaultCode) : (s.raise c).b = s.b := by unfold raise; split <;> rfl
@[simp] theorem raise_k (s : State) (c : FaultCode) : (s.raise c).k = s.k := by unfold raise; split <;> rfl
@[simp] theorem raise_i (s : State) (c : FaultCode) : (s.raise c).i = s.i := by unfold raise; split <;> rfl
@[simp] theorem raise_j (s : State) (c : FaultCode) : (s.raise c).j = s.j := by unfold raise; split <;> rfl
@[simp] theorem raise_blkidx (s : State) (c : FaultCode) : (s.raise c).blkidx = s.blkidx := by unfold raise; split <;> rfl
@[simp] theorem raise_cmdreg (s : State) (c : FaultCode) : (s.raise c).cmdreg = s.cmdreg := by unfold raise; split <;> rfl
@[simp] theorem raise_busy (s : State) (c : FaultCode) : (s.raise c).busy = s.busy := by unfold raise; split <;> rfl
@[simp] theorem raise_fin (s : State) (c : FaultCode) : (s.raise c).fin = s.fin := by unfold raise; split <;> rfl
@[simp] theorem raise_msgBase (s : State) (c : FaultCode) : (s.raise c).msgBase = s.msgBase := by unfold raise; split <;> rfl
@[simp] theorem raise_msgLen (s : State) (c : FaultCode) : (s.raise c).msgLen = s.msgLen := by unfold raise; split <;> rfl
@[simp] theorem raise_keyBase (s : State) (c : FaultCode) : (s.raise c).keyBase = s.keyBase := by unfold raise; split <;> rfl
@[simp] theorem raise_keyLen (s : State) (c : FaultCode) : (s.raise c).keyLen = s.keyLen := by unfold raise; split <;> rfl
@[simp] theorem raise_mem (s : State) (c : FaultCode) : (s.raise c).mem = s.mem := by unfold raise; split <;> rfl
@[simp] theorem raise_script (s : State) (c : FaultCode) : (s.raise c).script = s.script := by unfold raise; split <;> rfl
@[simp] theorem raise_answers (s : State) (c : FaultCode) : (s.raise c).answers = s.answers := by unfold raise; split <;> rfl
@[simp] theorem raise_slack (s : State) (c : FaultCode) : (s.raise c).slack = s.slack := by unfold raise; split <;> rfl
@[simp] theorem raise_turn (s : State) (c : FaultCode) : (s.raise c).turn = s.turn := by unfold raise; split <;> rfl

@[simp] theorem raise_err (s : State) (c : FaultCode) : (s.raise c).err = true := by
  unfold raise; split <;> simp_all

theorem raise_ecode_unlocked {s : State} (h : s.err = false) (c : FaultCode) : (s.raise c).ecode = faultCode c := by
  simp [raise, h]

theorem raise_done_unlocked {s : State} (h : s.err = false) (c : FaultCode) : (s.raise c).done = false := by
  simp [raise, h]

theorem raise_locked {s : State} (h : s.err = true) (c : FaultCode) : s.raise c = s := by simp [raise, h]

theorem raise_unlocked {s : State} (h : s.err = false) (c : FaultCode) :
    s.raise c = { s with err := true, ecode := faultCode c, done := false } := by simp [raise, h]

end State

/-! The end of the complete step (R208). -/

@[simp] theorem notBusy_cfg (s : State) : (notBusy s).cfg = s.cfg := rfl
@[simp] theorem notBusy_v (s : State) : (notBusy s).v = s.v := rfl
@[simp] theorem notBusy_r (s : State) : (notBusy s).r = s.r := rfl
@[simp] theorem notBusy_w (s : State) : (notBusy s).w = s.w := rfl
@[simp] theorem notBusy_wp (s : State) : (notBusy s).wp = s.wp := rfl
@[simp] theorem notBusy_b (s : State) : (notBusy s).b = s.b := rfl
@[simp] theorem notBusy_k (s : State) : (notBusy s).k = s.k := rfl
@[simp] theorem notBusy_i (s : State) : (notBusy s).i = s.i := rfl
@[simp] theorem notBusy_j (s : State) : (notBusy s).j = s.j := rfl
@[simp] theorem notBusy_blkidx (s : State) : (notBusy s).blkidx = s.blkidx := rfl
@[simp] theorem notBusy_cmdreg (s : State) : (notBusy s).cmdreg = s.cmdreg := rfl
@[simp] theorem notBusy_busy (s : State) : (notBusy s).busy = false := rfl
@[simp] theorem notBusy_done (s : State) : (notBusy s).done = s.done := rfl
@[simp] theorem notBusy_err (s : State) : (notBusy s).err = s.err := rfl
@[simp] theorem notBusy_fin (s : State) : (notBusy s).fin = s.fin := rfl
@[simp] theorem notBusy_ecode (s : State) : (notBusy s).ecode = s.ecode := rfl
@[simp] theorem notBusy_msgBase (s : State) : (notBusy s).msgBase = s.msgBase := rfl
@[simp] theorem notBusy_msgLen (s : State) : (notBusy s).msgLen = s.msgLen := rfl
@[simp] theorem notBusy_keyBase (s : State) : (notBusy s).keyBase = s.keyBase := rfl
@[simp] theorem notBusy_keyLen (s : State) : (notBusy s).keyLen = s.keyLen := rfl
@[simp] theorem notBusy_mem (s : State) : (notBusy s).mem = s.mem := rfl
@[simp] theorem notBusy_script (s : State) : (notBusy s).script = s.script := rfl
@[simp] theorem notBusy_answers (s : State) : (notBusy s).answers = s.answers := rfl
@[simp] theorem notBusy_slack (s : State) : (notBusy s).slack = s.slack := rfl
@[simp] theorem notBusy_turn (s : State) : (notBusy s).turn = s.turn := rfl

/-! `INIT` (R202). -/

@[simp] theorem initEffect_cfg (s : State) : (initEffect s).cfg = s.cfg := rfl
@[simp] theorem initEffect_v (s : State) : (initEffect s).v = IV := rfl
@[simp] theorem initEffect_r (s : State) : (initEffect s).r = s.r := rfl
@[simp] theorem initEffect_w (s : State) : (initEffect s).w = s.w := rfl
@[simp] theorem initEffect_wp (s : State) : (initEffect s).wp = s.wp := rfl
@[simp] theorem initEffect_b (s : State) : (initEffect s).b = s.b := rfl
@[simp] theorem initEffect_k (s : State) : (initEffect s).k = s.k := rfl
@[simp] theorem initEffect_i (s : State) : (initEffect s).i = s.i := rfl
@[simp] theorem initEffect_j (s : State) : (initEffect s).j = 0 := rfl
@[simp] theorem initEffect_blkidx (s : State) : (initEffect s).blkidx = 0 := rfl
@[simp] theorem initEffect_cmdreg (s : State) : (initEffect s).cmdreg = s.cmdreg := rfl
@[simp] theorem initEffect_busy (s : State) : (initEffect s).busy = s.busy := rfl
@[simp] theorem initEffect_done (s : State) : (initEffect s).done = false := rfl
@[simp] theorem initEffect_err (s : State) : (initEffect s).err = s.err := rfl
@[simp] theorem initEffect_fin (s : State) : (initEffect s).fin = false := rfl
@[simp] theorem initEffect_ecode (s : State) : (initEffect s).ecode = s.ecode := rfl
@[simp] theorem initEffect_msgBase (s : State) : (initEffect s).msgBase = s.msgBase := rfl
@[simp] theorem initEffect_msgLen (s : State) : (initEffect s).msgLen = s.msgLen := rfl
@[simp] theorem initEffect_keyBase (s : State) : (initEffect s).keyBase = s.keyBase := rfl
@[simp] theorem initEffect_keyLen (s : State) : (initEffect s).keyLen = s.keyLen := rfl
@[simp] theorem initEffect_mem (s : State) : (initEffect s).mem = s.mem := rfl
@[simp] theorem initEffect_script (s : State) : (initEffect s).script = s.script := rfl
@[simp] theorem initEffect_answers (s : State) : (initEffect s).answers = s.answers := rfl
@[simp] theorem initEffect_slack (s : State) : (initEffect s).slack = s.slack := rfl
@[simp] theorem initEffect_turn (s : State) : (initEffect s).turn = s.turn := rfl

/-! `PADBLK` (R116). -/

@[simp] theorem padblkEffect_cfg (s : State) : (padblkEffect s).cfg = s.cfg := by unfold padblkEffect; rfl
@[simp] theorem padblkEffect_v (s : State) : (padblkEffect s).v = s.v := by unfold padblkEffect; rfl
@[simp] theorem padblkEffect_r (s : State) : (padblkEffect s).r = s.r := by unfold padblkEffect; rfl
@[simp] theorem padblkEffect_w (s : State) : (padblkEffect s).w = s.w := by unfold padblkEffect; rfl
@[simp] theorem padblkEffect_wp (s : State) : (padblkEffect s).wp = s.wp := by unfold padblkEffect; rfl
@[simp] theorem padblkEffect_b (s : State) :
    (padblkEffect s).b = streamBlock s.msgStream s.blkidx.toNat := by
  unfold padblkEffect; rfl
@[simp] theorem padblkEffect_k (s : State) : (padblkEffect s).k = s.k := by unfold padblkEffect; rfl
@[simp] theorem padblkEffect_i (s : State) : (padblkEffect s).i = s.i := by unfold padblkEffect; rfl
@[simp] theorem padblkEffect_j (s : State) : (padblkEffect s).j = s.j := by unfold padblkEffect; rfl
@[simp] theorem padblkEffect_blkidx (s : State) : (padblkEffect s).blkidx = s.blkidx + 1 := by unfold padblkEffect; rfl
@[simp] theorem padblkEffect_cmdreg (s : State) : (padblkEffect s).cmdreg = s.cmdreg := by unfold padblkEffect; rfl
@[simp] theorem padblkEffect_busy (s : State) : (padblkEffect s).busy = s.busy := by unfold padblkEffect; rfl
@[simp] theorem padblkEffect_done (s : State) : (padblkEffect s).done = false := by unfold padblkEffect; rfl
@[simp] theorem padblkEffect_err (s : State) : (padblkEffect s).err = s.err := by unfold padblkEffect; rfl
@[simp] theorem padblkEffect_fin (s : State) :
    (padblkEffect s).fin = decide (s.blkidx.toNat + 1 = nblocks s.msgLen.toNat) := by
  unfold padblkEffect; rfl
@[simp] theorem padblkEffect_ecode (s : State) : (padblkEffect s).ecode = s.ecode := by unfold padblkEffect; rfl
@[simp] theorem padblkEffect_msgBase (s : State) : (padblkEffect s).msgBase = s.msgBase := by unfold padblkEffect; rfl
@[simp] theorem padblkEffect_msgLen (s : State) : (padblkEffect s).msgLen = s.msgLen := by unfold padblkEffect; rfl
@[simp] theorem padblkEffect_keyBase (s : State) : (padblkEffect s).keyBase = s.keyBase := by unfold padblkEffect; rfl
@[simp] theorem padblkEffect_keyLen (s : State) : (padblkEffect s).keyLen = s.keyLen := by unfold padblkEffect; rfl
@[simp] theorem padblkEffect_mem (s : State) : (padblkEffect s).mem = s.mem := by unfold padblkEffect; rfl
@[simp] theorem padblkEffect_script (s : State) : (padblkEffect s).script = s.script := by unfold padblkEffect; rfl
@[simp] theorem padblkEffect_answers (s : State) : (padblkEffect s).answers = s.answers := by unfold padblkEffect; rfl
@[simp] theorem padblkEffect_slack (s : State) : (padblkEffect s).slack = s.slack := by unfold padblkEffect; rfl
@[simp] theorem padblkEffect_turn (s : State) : (padblkEffect s).turn = s.turn := by unfold padblkEffect; rfl

end Sys2Proof.Machine
end

