-- ==== Sys2Proof/Laws/Ops.lean ====
section
/-! SUPPORT. What the shared operations do, once each: the frame of a command, and the block loop with the hash pass.
The commands' proofs cite these and unfold no operation. -/

namespace Sys2Proof.Machine

/-! The frame of a command (R200, R228, R230). -/

theorem command_locked {s : State} (h : s.err = true) (fault : Option FaultCode) (effect : State → State) :
    command fault effect s = .next s := by unfold command; rw [if_pos h]

theorem command_fault {s : State} (h : s.err = false) (c : FaultCode) (effect : State → State) :
    command (some c) effect s = .next (s.raise c) := by unfold command; rw [if_neg (by simp [h])]

theorem command_ok {s : State} (h : s.err = false) (effect : State → State) :
    command none effect s = .next (effect s) := by unfold command; rw [if_neg (by simp [h])]

/-- Everything a command but `CLEAR` can do. -/
theorem command_cases {fault : Option FaultCode} {effect : State → State} {s t : State}
    (h : command fault effect s = .next t) :
    (s.err = true ∧ t = s) ∨ (s.err = false ∧ ∃ c, fault = some c ∧ t = s.raise c) ∨
      (s.err = false ∧ fault = none ∧ t = effect s) := by
  cases hs : s.err with
  | true => rw [command_locked hs] at h; cases h; exact .inl ⟨rfl, rfl⟩
  | false =>
    cases fault with
    | none => rw [command_ok hs] at h; cases h; exact .inr (.inr ⟨rfl, rfl, rfl⟩)
    | some c => rw [command_fault hs] at h; cases h; exact .inr (.inl ⟨rfl, c, rfl, rfl⟩)

namespace State

/-! The block loop (R166, R167). -/

theorem absorbStream_zero (S : ByteStream) (i : Nat) (s : State) : absorbStream S 0 i s = s := by rw [absorbStream]

theorem absorbStream_succ (S : ByteStream) (count i : Nat) (s : State) :
    absorbStream S (count + 1) i s = absorbStream S count (i + 1) (s.absorbStreamBlock S i) := by rw [absorbStream]

/-- One block: `V` is compressed with the expansion of the block. -/
theorem absorbStreamBlock_v (s : State) (S : ByteStream) (i : Nat) :
    (s.absorbStreamBlock S i).v =
      compressBlock s.v (expandW (streamBlock S i)) (mixWords (expandW (streamBlock S i))) := by
  rw [absorbStreamBlock, compressBuffer_v, expandBuffer_v, expandBuffer_w, expandBuffer_wp, fetch_v, fetch_b]

/-- What the block loop keeps: all but `V` and the scratch of one block. -/
structure SameOutside (s t : State) : Prop where
  cfg : t.cfg = s.cfg
  k : t.k = s.k
  i : t.i = s.i
  blkidx : t.blkidx = s.blkidx
  cmdreg : t.cmdreg = s.cmdreg
  busy : t.busy = s.busy
  done : t.done = s.done
  err : t.err = s.err
  fin : t.fin = s.fin
  ecode : t.ecode = s.ecode
  msgBase : t.msgBase = s.msgBase
  msgLen : t.msgLen = s.msgLen
  keyBase : t.keyBase = s.keyBase
  keyLen : t.keyLen = s.keyLen
  mem : t.mem = s.mem
  script : t.script = s.script
  answers : t.answers = s.answers
  slack : t.slack = s.slack
  turn : t.turn = s.turn

theorem SameOutside.refl (s : State) : SameOutside s s := by constructor <;> rfl

theorem SameOutside.trans {s t u : State} (h : SameOutside s t) (g : SameOutside t u) : SameOutside s u where
  cfg := g.cfg.trans h.cfg
  k := g.k.trans h.k
  i := g.i.trans h.i
  blkidx := g.blkidx.trans h.blkidx
  cmdreg := g.cmdreg.trans h.cmdreg
  busy := g.busy.trans h.busy
  done := g.done.trans h.done
  err := g.err.trans h.err
  fin := g.fin.trans h.fin
  ecode := g.ecode.trans h.ecode
  msgBase := g.msgBase.trans h.msgBase
  msgLen := g.msgLen.trans h.msgLen
  keyBase := g.keyBase.trans h.keyBase
  keyLen := g.keyLen.trans h.keyLen
  mem := g.mem.trans h.mem
  script := g.script.trans h.script
  answers := g.answers.trans h.answers
  slack := g.slack.trans h.slack
  turn := g.turn.trans h.turn

theorem absorbStreamBlock_same (s : State) (S : ByteStream) (i : Nat) : SameOutside s (s.absorbStreamBlock S i) := by
  constructor <;> simp [absorbStreamBlock]

theorem absorbStream_same (S : ByteStream) (count i : Nat) (s : State) : SameOutside s (absorbStream S count i s) := by
  induction count generalizing i s with
  | zero => rw [absorbStream_zero]; exact .refl s
  | succ n ih => rw [absorbStream_succ]; exact (absorbStreamBlock_same s S i).trans (ih _ _)

/-- What a hash pass keeps (R167, R187). -/
theorem hashPass_same (s : State) (S : ByteStream) : SameOutside s (s.hashPass S) :=
  SameOutside.trans (by constructor <;> rfl) (absorbStream_same S (nblocks S.len) 0 { s with v := IV })

/-- What the block loop leaves in `V` depends on the `V` before it and the blocks alone. -/
theorem absorbStream_v_congr {S S' : ByteStream} {count i : Nat} {s s' : State}
    (h : ∀ n, i ≤ n → n < i + count → streamBlock S n = streamBlock S' n) (hv : s.v = s'.v) :
    (absorbStream S count i s).v = (absorbStream S' count i s').v := by
  induction count generalizing i s s' with
  | zero => rw [absorbStream_zero, absorbStream_zero, hv]
  | succ n ih =>
    rw [absorbStream_succ, absorbStream_succ]
    refine ih (fun m h1 h2 => h m (by omega) (by omega)) ?_
    rw [absorbStreamBlock_v, absorbStreamBlock_v, hv, h i (by omega) (by omega)]

/-- What a hash pass leaves in `V` depends on the stream alone. -/
theorem hashPass_v_congr {S S' : ByteStream} (s s' : State) (hlen : S.len = S'.len)
    (h : ∀ p, p < S.len → S.byte p = S'.byte p) : (s.hashPass S).v = (s'.hashPass S').v := by
  rw [hashPass, hashPass, hlen]
  exact absorbStream_v_congr (fun n _ _ => streamBlock_congr hlen fun p _ _ hp => h p hp) rfl

/-- FINISH after a hash pass is FINISH of the state before it, with the `V` the pass left. -/
theorem SameOutside.finish_eq {s t : State} (h : SameOutside s t) : t.finish = ({ s with v := t.v } : State).finish := by
  obtain ⟨h1, h2, h3, h4, h5, h6, h7, h8, h9, h10, h11, h12, h13, h14, h15, h16, h17, h18, h19⟩ := h
  cases s; cases t
  simp only at *
  subst_vars
  rfl

end State

end Sys2Proof.Machine
end

