-- ==== Sys2Proof/Laws/Step.lean ====
section
/-! SUPPORT. What the complete step, the HOST's transactions and the step of the machine can do, said once each. -/

namespace Sys2Proof.Machine

theorem endCommand_next {o : Host.Outcome State Fault Refusal} {t : State} (h : endCommand o = .next t) :
    ∃ u, o = .next u ∧ t = notBusy u := by
  cases o with
  | next u => cases h; exact ⟨u, rfl, rfl⟩
  | fault f => cases h
  | refused r => cases h

/-- The effect each command but `CLEAR` has when it raises no fault. -/
def effectOf : Instr → State → State
  | .nop => id
  | .init => initEffect
  | .clear => State.clearBlock
  | .padblk => padblkEffect
  | .expand => fun t => t.expandBuffer.clearDone
  | .ldreg => fun t => t.loadRegs.clearDone
  | .round n => fun t => (t.doRounds n.toNat).clearDone
  | .feedfwd => fun t => t.feedForward.clearDone
  | .compress => fun t => t.compressBuffer.clearDone
  | .digest => digestEffect
  | .hmac => hmacEffect

/-- Every command but `CLEAR` has the one frame (R200). -/
theorem exec_eq_command {i : Instr} (h : i ≠ .clear) (s : State) : exec i s = command (s.faultOf i) (effectOf i) s := by
  cases i <;> first | exact absurd rfl h | rfl

theorem exec_ok {i : Instr} {s : State} (h : i ≠ .clear) (hs : s.err = false) (hf : s.faultOf i = none) :
    exec i s = .next (effectOf i s) := by rw [exec_eq_command h, hf, command_ok hs]

theorem exec_fault {i : Instr} {s : State} {c : FaultCode} (h : i ≠ .clear) (hs : s.err = false)
    (hf : s.faultOf i = some c) :
    exec i s = .next { s with err := true, ecode := faultCode c, done := false } := by
  rw [exec_eq_command h, hf, command_fault hs, State.raise_unlocked hs]

theorem exec_locked {i : Instr} {s : State} (h : i ≠ .clear) (hs : s.err = true) : exec i s = .next s := by
  rw [exec_eq_command h, command_locked hs]

/-- Every command answers a next state. -/
theorem exec_next (i : Instr) (s : State) : ∃ t, exec i s = .next t := by
  by_cases h : i = .clear
  · subst h; exact ⟨_, rfl⟩
  · rw [exec_eq_command h]
    cases hs : s.err with
    | true => exact ⟨_, command_locked hs ..⟩
    | false =>
      cases s.faultOf i with
      | none => exact ⟨_, command_ok hs _⟩
      | some c => exact ⟨_, command_fault hs c _⟩

/-- Everything a command can do: `CLEAR`, the discard of a locked block, a fault, or its effect. -/
theorem exec_cases {i : Instr} {s t : State} (h : exec i s = .next t) :
    (i = .clear ∧ t = s.clearBlock) ∨ (i ≠ .clear ∧ s.err = true ∧ t = s) ∨
      (i ≠ .clear ∧ s.err = false ∧ ∃ c, s.faultOf i = some c ∧ t = s.raise c) ∨
      (i ≠ .clear ∧ s.err = false ∧ s.faultOf i = none ∧ t = effectOf i s) := by
  by_cases hc : i = .clear
  · subst hc; cases h; exact .inl ⟨rfl, rfl⟩
  · rw [exec_eq_command hc] at h
    rcases command_cases h with ⟨h1, h2⟩ | ⟨h1, h2⟩ | ⟨h1, h2, h3⟩
    · exact .inr (.inl ⟨hc, h1, h2⟩)
    · exact .inr (.inr (.inl ⟨hc, h1, h2⟩))
    · exact .inr (.inr (.inr ⟨hc, h1, h2, h3⟩))

/-- The complete step, case by case: an illegal word, or a command. -/
theorem complete_cases {s t : State} (h : complete s = .next t) :
    ((∃ e, decode s.cmdreg = .error e) ∧ t = notBusy (s.raise .ill)) ∨
      ∃ i u, decode s.cmdreg = .ok i ∧ exec i s = .next u ∧ t = notBusy u := by
  obtain ⟨u, hu, rfl⟩ := endCommand_next h
  unfold execWord at hu
  split at hu
  · exact .inr ⟨_, u, ‹_›, hu, rfl⟩
  · cases hu; exact .inl ⟨⟨_, ‹_›⟩, rfl⟩

/-- A HOST memory write, case by case. -/
theorem memWrite_cases (s : State) (addr : Nat) (byte : Byte) :
    (2 ^ s.cfg.aw ≤ addr ∧ s.memWrite addr byte = .fault .noSuchAddress) ∨
    (s.busy = true ∧ s.inPendingFootprint addr = true ∧ s.memWrite addr byte = .refused .stabilityDutyBroken) ∨
    (addr < 2 ^ s.cfg.aw ∧ (s.busy && s.inPendingFootprint addr) = false ∧
      s.memWrite addr byte = .next { s with mem := memSet s.mem addr byte }) := by
  unfold State.memWrite
  by_cases h1 : 2 ^ s.cfg.aw ≤ addr
  · rw [if_pos h1]; exact .inl ⟨h1, rfl⟩
  · rw [if_neg h1]
    cases hb : (s.busy && s.inPendingFootprint addr) with
    | true => rw [Bool.and_eq_true] at hb; exact .inr (.inl ⟨hb.1, hb.2, rfl⟩)
    | false => exact .inr (.inr ⟨by omega, rfl, rfl⟩)

/-- A register write changes nothing outside `CMDREG`, `BUSY`, the four descriptors and the schedule. -/
theorem regWrite_eq (s : State) (idx : BitVec 6) (data : Word) :
    s.regWrite idx data =
      { s with
        cmdreg := (s.regWrite idx data).cmdreg
        busy := (s.regWrite idx data).busy
        msgBase := (s.regWrite idx data).msgBase
        msgLen := (s.regWrite idx data).msgLen
        keyBase := (s.regWrite idx data).keyBase
        keyLen := (s.regWrite idx data).keyLen
        slack := (s.regWrite idx data).slack
        turn := (s.regWrite idx data).turn } := by
  unfold State.regWrite
  split <;> rfl

/-- The step of the machine, case by case. -/
theorem step_cases (s : State) :
    (s.busy = true ∧ (s.hostWaits = true ∨ s.slack = 0) ∧ step s = complete s) ∨
    (s.busy = true ∧ s.hostWaits = false ∧ 0 < s.slack ∧ step s = s.spend.hostMove) ∨
    (s.busy = false ∧ step s = s.hostMove) := by
  unfold step
  cases s.busy <;> cases s.hostWaits <;> cases s.slack <;> simp

/-- A pending command is completed by the very next step where the HOST waits or has used up its steps. -/
theorem step_complete {s : State} (hb : s.busy = true) (h : s.hostWaits = true ∨ s.slack = 0) :
    step s = complete s := by
  rcases h with h | h <;> simp [step, hb, h]

/-- The HOST's step while a command is pending. -/
theorem step_host {s : State} (hb : s.busy = true) (hw : s.hostWaits = false) (hs : 0 < s.slack) :
    step s = s.spend.hostMove := by
  simp [step, hb, hw, show s.slack ≠ 0 by omega]

/-- The step of an idle block is the HOST's. -/
theorem step_idle {s : State} (hb : s.busy = false) : step s = s.hostMove := by simp [step, hb]

/-- A run goes on from the next state of its first step. -/
theorem run_next {s u : State} (h : step s = .next u) (k : Nat) :
    Sys2Proof.core.run (k + 1) s = Sys2Proof.core.run k u := by
  have h' : Sys2Proof.core.step s = .next u := h
  simp only [Host.Core.run, h']

/-- A run of one step is the step. -/
theorem run_one {s : State} {o : Host.Outcome State Fault Refusal} (h : step s = o) :
    Sys2Proof.core.run 1 s = o := by
  have h' : Sys2Proof.core.step s = o := h
  cases o <;> simp only [Host.Core.run, h'] <;> rfl

end Sys2Proof.Machine
end

