-- ==== Sys2Proof/Laws/Macro.lean ====
section
/-! SUPPORT. Outcomes one after another; the macro commands `DIGEST` and `HMAC` as one update of the state; and what no
command's effect touches. -/

namespace Sys2Proof.Machine

open State

@[simp] theorem andThen_next (t : State) (f : State → Host.Outcome State Fault Refusal) :
    andThen (.next t) f = f t := rfl

/-- The byte strings behind the message and the key streams (R115, R181). -/
theorem streamBytes_msgStream (s : State) : streamBytes s.msgStream = messageOf s := rfl

theorem streamBytes_keyStream (s : State) : streamBytes s.keyStream = keyOf s := rfl

/-- `DIGEST` is FINISH on the state with the `V` of its hash pass: nothing else of the pass is left (R167, R168). -/
theorem digestEffect_eq (s : State) :
    digestEffect s = ({ s with v := (s.hashPass s.msgStream).v } : State).finish :=
  (hashPass_same s _).finish_eq

/-- The key load keeps all but `V`, the scratch of a block, and `K`. -/
theorem loadKey_same (s : State) : SameOutside { s with k := (loadKey s).k } (loadKey s) := by
  unfold loadKey
  split
  · obtain ⟨h1, h2, h3, h4, h5, h6, h7, h8, h9, h10, h11, h12, h13, h14, h15, h16, h17, h18, h19⟩ :=
      hashPass_same s s.keyStream
    constructor <;> first | rfl | assumption
  · constructor <;> rfl

/-- The inner pass keeps all but `V`, the scratch of a block, and `I`. -/
theorem innerPass_same (s : State) : SameOutside { s with i := (innerPass s).i } (innerPass s) := by
  obtain ⟨h1, h2, h3, h4, h5, h6, h7, h8, h9, h10, h11, h12, h13, h14, h15, h16, h17, h18, h19⟩ :=
    hashPass_same s s.innerStream
  unfold innerPass
  constructor <;> first | rfl | assumption

/-- `HMAC` is FINISH on the state with the `V` of its outer pass: the transients are gone (R26, R187). -/
theorem hmacEffect_eq (s : State) :
    hmacEffect s = ({ s with v := (outerPass (innerPass (loadKey s))).v } : State).finish := by
  have h1 := loadKey_same s
  have h2 := innerPass_same (loadKey s)
  have h3 : SameOutside (innerPass (loadKey s)) (outerPass (innerPass (loadKey s))) := hashPass_same _ _
  rw [hmacEffect, h3.finish_eq]
  generalize (outerPass (innerPass (loadKey s))).v = v
  generalize innerPass (loadKey s) = t2 at *
  generalize loadKey s = t1 at *
  obtain ⟨a1, a2, a3, a4, a5, a6, a7, a8, a9, a10, a11, a12, a13, a14, a15, a16, a17, a18, a19⟩ := h1
  obtain ⟨b1, b2, b3, b4, b5, b6, b7, b8, b9, b10, b11, b12, b13, b14, b15, b16, b17, b18, b19⟩ := h2
  cases s; cases t1; cases t2
  simp only at *
  subst_vars
  rfl

/-- What no command but `CLEAR` writes: the parameter, `CMDREG`, `BUSY`, `ERR`, `ECODE`, the transients, the descriptors,
the memory and the HOST's side. -/
structure EffectKeeps (s t : State) : Prop where
  cfg : t.cfg = s.cfg
  cmdreg : t.cmdreg = s.cmdreg
  busy : t.busy = s.busy
  err : t.err = s.err
  ecode : t.ecode = s.ecode
  msgBase : t.msgBase = s.msgBase
  msgLen : t.msgLen = s.msgLen
  keyBase : t.keyBase = s.keyBase
  keyLen : t.keyLen = s.keyLen
  mem : t.mem = s.mem
  script : t.script = s.script
  answers : t.answers = s.answers
  slack : t.slack = s.slack
  turn : t.turn = s.turn

theorem finish_keeps (s : State) (v : Words8) : EffectKeeps s ({ s with v := v } : State).finish := by
  constructor <;> rfl

theorem effectOf_keeps {i : Instr} (h : i ≠ .clear) (s : State) : EffectKeeps s (effectOf i s) := by
  cases i
  case clear => exact absurd rfl h
  case digest => rw [effectOf, digestEffect_eq]; exact finish_keeps s _
  case hmac => rw [effectOf, hmacEffect_eq]; exact finish_keeps s _
  all_goals constructor <;> simp [effectOf]

end Sys2Proof.Machine
end

