-- ==== Sys2Proof/Laws/Memory.lean ====
section
/-! SUPPORT. The laws of the message memory: a read after a write, what a write leaves alone, and that it keeps the
canonical form. -/

namespace Sys2Proof.Machine

@[simp] theorem memByte_nil (addr : Nat) : memByte [] addr = unwrittenByte := rfl

@[simp] theorem memByte_cons (c : Host.Cell) (rest : Memory) (addr : Nat) :
    memByte (c :: rest) addr = if c.1 = addr then c.2 else memByte rest addr := rfl

theorem memByte_of_lt {m : Memory} {addr : Nat} (h : ∀ c ∈ m, addr < c.1) : memByte m addr = unwrittenByte := by
  induction m with
  | nil => rfl
  | cons c rest ih =>
    have hc := h c (by simp)
    rw [memByte_cons, if_neg (by omega), ih fun d hd => h d (by simp [hd])]

theorem memByte_cellOf_append (addr a : Nat) (byte : Byte) (rest : Memory) :
    memByte (cellOf addr byte ++ rest) a =
      if byte ≠ unwrittenByte ∧ addr = a then byte else memByte rest a := by
  by_cases hb : byte = unwrittenByte <;> by_cases ha : addr = a <;> simp [cellOf, hb, ha]

/-- A write leaves every other address as it was; no form of the memory is needed for it. -/
theorem memByte_memSet_other (m : Memory) {addr a : Nat} (byte : Byte) (h : a ≠ addr) :
    memByte (memSet m addr byte) a = memByte m a := by
  induction m with
  | nil =>
    have := memByte_cellOf_append addr a byte []
    simp only [List.append_nil] at this
    rw [memSet, this, if_neg (fun hc => h hc.2.symm)]
  | cons c rest ih =>
    unfold memSet
    split
    · simp [ih]
    · split
      · rename_i hc
        rw [memByte_cellOf_append, if_neg (fun hc => h hc.2.symm), memByte_cons, if_neg (by omega)]
      · rw [memByte_cellOf_append, if_neg (fun hc => h hc.2.symm)]

theorem mem_cellOf {addr : Nat} {byte : Byte} {c : Host.Cell} (h : c ∈ cellOf addr byte) :
    c = (addr, byte) ∧ byte ≠ unwrittenByte := by
  unfold cellOf at h
  split at h <;> simp_all

theorem mem_memSet {m : Memory} {addr : Nat} {byte : Byte} {c : Host.Cell} (h : c ∈ memSet m addr byte) :
    (c = (addr, byte) ∧ byte ≠ unwrittenByte) ∨ c ∈ m := by
  induction m with
  | nil => exact .inl (mem_cellOf h)
  | cons d rest ih =>
    unfold memSet at h
    split at h
    · rcases List.mem_cons.1 h with rfl | h
      · simp
      · rcases ih h with h | h
        · exact .inl h
        · simp [h]
    · split at h <;> rcases List.mem_append.1 h with h | h
      · exact .inl (mem_cellOf h)
      · simp [h]
      · exact .inl (mem_cellOf h)
      · exact .inr h

theorem memWF_tail {c : Host.Cell} {rest : Memory} (h : memWF (c :: rest)) :
    memWF rest ∧ (∀ d ∈ rest, c.1 < d.1) ∧ c.2 ≠ unwrittenByte :=
  ⟨⟨(List.pairwise_cons.1 h.1).2, fun d hd => h.2 d (by simp [hd])⟩, (List.pairwise_cons.1 h.1).1, h.2 c (by simp)⟩

theorem memWF_cons {c : Host.Cell} {rest : Memory} (h : memWF rest) (hlt : ∀ d ∈ rest, c.1 < d.1)
    (hc : c.2 ≠ unwrittenByte) : memWF (c :: rest) :=
  ⟨List.pairwise_cons.2 ⟨hlt, h.1⟩, fun d hd => (List.mem_cons.1 hd).elim (fun e => e ▸ hc) (h.2 d)⟩

theorem memWF_cellOf_append {addr : Nat} {byte : Byte} {rest : Memory} (h : memWF rest)
    (hlt : ∀ d ∈ rest, addr < d.1) : memWF (cellOf addr byte ++ rest) := by
  unfold cellOf
  split
  · exact h
  · exact memWF_cons h hlt ‹_›

/-- Every write keeps the canonical form. -/
theorem memWF_memSet {m : Memory} (addr : Nat) (byte : Byte) (h : memWF m) : memWF (memSet m addr byte) := by
  induction m with
  | nil => simpa [memSet] using memWF_cellOf_append (addr := addr) (byte := byte) h (by simp)
  | cons c rest ih =>
    obtain ⟨hr, hlt, hc⟩ := memWF_tail h
    unfold memSet
    split
    · refine memWF_cons (ih hr) (fun d hd => ?_) hc
      rcases mem_memSet hd with ⟨rfl, -⟩ | hd
      · assumption
      · exact hlt d hd
    · split
      · exact memWF_cellOf_append hr (fun d hd => by have := hlt d hd; omega)
      · refine memWF_cellOf_append h (fun d hd => ?_)
        rcases List.mem_cons.1 hd with rfl | hd
        · omega
        · have := hlt d hd; omega

/-- A read gives the byte last written, in a memory whose addresses rise. -/
theorem memByte_memSet_same {m : Memory} (addr : Nat) (byte : Byte)
    (h : m.Pairwise fun c d => c.1 < d.1) : memByte (memSet m addr byte) addr = byte := by
  have absent : ∀ rest : Memory, (∀ d ∈ rest, addr < d.1) → memByte (cellOf addr byte ++ rest) addr = byte := by
    intro rest hlt
    rw [memByte_cellOf_append]
    split
    · rfl
    · rw [memByte_of_lt hlt]; simp_all
  induction m with
  | nil => simpa [memSet] using absent [] (by simp)
  | cons c rest ih =>
    obtain ⟨hlt, hr⟩ := List.pairwise_cons.1 h
    unfold memSet
    split
    · rw [memByte_cons, if_neg (by omega), ih hr]
    · split
      · exact absent _ fun d hd => by have := hlt d hd; omega
      · refine absent _ fun d hd => ?_
        rcases List.mem_cons.1 hd with rfl | hd
        · omega
        · have := hlt d hd; omega

/-- The memory after reset is in canonical form. -/
theorem memWF_nil : memWF [] := ⟨.nil, by simp⟩

@[simp] theorem memRead_length (m : Memory) (addr n : Nat) : (memRead m addr n).length = n := by simp [memRead]

theorem memRead_getD {m : Memory} {addr n p : Nat} (h : p < n) :
    (memRead m addr n).getD p 0 = memByte m (addr + p) := by simp [memRead, h]

end Sys2Proof.Machine
end

