-- ==== Sys2Proof/Laws/PerInstr.lean ====
section
/-! SUPPORT. Facts about every command as syntax, one lemma a constructor: the family `EncodedFields`, the fields of the
command word the encoder gives it (spec/30_encoding.md R70). -/

/-- The encoded word carries the command's opcode in bits 31:24, zero in bits 23:7, and in bits 6:0 the count of `ROUND`
or zero. -/
def Sys2Proof.Laws.EncodedFields.Statement (i : Sys2Proof.Instr) : Prop :=
  Sys2Proof.opcField (Sys2Proof.encode i) = Sys2Proof.opcodeOf i ∧
  Sys2Proof.zeroFieldN (Sys2Proof.encode i) = 0 ∧
  Sys2Proof.countField (Sys2Proof.encode i) = (match i with | .round n => n | _ => 0)

namespace Sys2Proof.Laws.EncodedFields

theorem nop : Statement .nop := by unfold Statement; decide

theorem init : Statement .init := by unfold Statement; decide

theorem clear : Statement .clear := by unfold Statement; decide

theorem padblk : Statement .padblk := by unfold Statement; decide

theorem expand : Statement .expand := by unfold Statement; decide

theorem ldreg : Statement .ldreg := by unfold Statement; decide

theorem round (n : BitVec 7) : Statement (.round n) := by
  have hn := n.isLt
  have h : (encode (.round n)).toNat = 0x13 * 2 ^ 24 + n.toNat := formatN_toNat 0x13 n
  refine ⟨?_, ?_, ?_⟩ <;> apply BitVec.eq_of_toNat_eq
  · rw [opcField_toNat, h, opcodeOf, show (0x13 : BitVec 8).toNat = 0x13 from rfl]; omega
  · rw [zeroFieldN_toNat, h, show (0 : BitVec 17).toNat = 0 from rfl]; omega
  · show _ = n.toNat
    rw [countField_toNat, h]; omega

theorem feedfwd : Statement .feedfwd := by unfold Statement; decide

theorem compress : Statement .compress := by unfold Statement; decide

theorem digest : Statement .digest := by unfold Statement; decide

theorem hmac : Statement .hmac := by unfold Statement; decide

end Sys2Proof.Laws.EncodedFields
end

