-- ==== Sys2Proof/Tests/Slice0.lean ====
section
/-! SUPPORT. Tests of the model on small states, one step each, with the values of spec/95_test_vectors.md (the section
is named at each test); and for every statement with hypotheses a witness that meets them. -/

namespace Sys2Proof.Tests

open Sys2Proof Sys2Proof.Machine

/-- What a test looks at in the next state; nothing if the machine stopped. -/
def after {α : Type} (o : Host.Outcome State Fault Refusal) (f : State → α) : Option α :=
  match o with
  | .next t => some (f t)
  | .fault _ => none
  | .refused _ => none

/-- Reset, with the message "abc" at 0x1000 and the key "key" at 0x2000 (section 9, P1 and P3). -/
def abc : State :=
  { State.reset with
    mem := [(0x1000, 0x61), (0x1001, 0x62), (0x1002, 0x63), (0x2000, 0x6b), (0x2001, 0x65), (0x2002, 0x79)]
    msgBase := 0x1000
    msgLen := 3
    keyBase := 0x2000
    keyLen := 3 }

/-- Reset with message descriptors. -/
def withMsg (base len : BitVec 64) : State := { State.reset with msgBase := base, msgLen := len }

/-- Reset with key descriptors and a message length. -/
def withKey (base len msgLen : BitVec 64) : State :=
  { State.reset with keyBase := base, keyLen := len, msgLen := msgLen }

/-- Reset with a script for the HOST. -/
def withScript (script : List Transaction) : State := { State.reset with script := script }

/-- The block of the padded "abc" (section 3). -/
def abcBlock : Vector Byte 64 := blockOfBytes ([0x61, 0x62, 0x63, 0x80] ++ List.replicate 59 0x00 ++ [0x18])

/-- A locked block, as after `E_ILL`. -/
def locked : State := { State.reset with err := true, ecode := 1 }

/-- A block with a command pending. -/
def pending (cw : Word) (script : List Transaction) : State :=
  { State.reset with cmdreg := cw, busy := true, script := script }

/-- The same, with so many steps left to the HOST before the CORE completes the command. -/
def pendingFor (slack : Nat) (cw : Word) (script : List Transaction) : State :=
  { pending cw script with slack := slack }

/-- `PADBLK` of "abc" pending, with one step left to the HOST. -/
def padblkAbc (script : List Transaction) : State :=
  { abc with cmdreg := 0x10000000, busy := true, script := script, slack := 1 }

/-! Well-formed and ill-formed terms (30_encoding.md R71). -/

theorem test_wf_round_bounds : (Instr.round 1).wellFormed = true ∧ (Instr.round 64).wellFormed = true := by decide

theorem test_wf_round_zero_refused : (Instr.round 0).wellFormed = false := by decide

theorem test_wf_round_above_refused :
    (Instr.round 65).wellFormed = false ∧ (Instr.round 127).wellFormed = false := by decide

/-! Decoding of words written out from the encoding: section 8, and as bits `OPC | zero | N` (R70). -/

theorem test_decode_nop : decode 0x00000000 = .ok .nop := by decide

theorem test_decode_init : decode 0x01000000 = .ok .init := by decide

theorem test_decode_clear : decode 0x02000000 = .ok .clear := by decide

theorem test_decode_padblk : decode 0b00010000000000000000000000000000 = .ok .padblk := by decide

theorem test_decode_expand : decode 0x11000000 = .ok .expand := by decide

theorem test_decode_ldreg : decode 0x12000000 = .ok .ldreg := by decide

theorem test_decode_round : decode 0b00010011000000000000000001000000 = .ok (.round 64) := by decide

theorem test_decode_feedfwd : decode 0x14000000 = .ok .feedfwd := by decide

theorem test_decode_compress : decode 0x15000000 = .ok .compress := by decide

theorem test_decode_digest : decode 0b00100000000000000000000000000000 = .ok .digest := by decide

theorem test_decode_hmac : decode 0b00100001000000000000000000000000 = .ok .hmac := by decide

theorem test_decode_reserved_bits :
    [0x00000001, 0x01000100, 0x02800000, 0x10000040, 0x13000080, 0x13000101, 0x20000001].all
      (fun cw => decode cw = .error .reservedBits) = true := by decide

theorem test_decode_unknown_opcodes :
    [0x03000000, 0x0F000000, 0x16000000, 0x1F000000, 0x22000000, 0x80000000, 0xFFFFFFFF].all
      (fun cw => decode cw = .error .unknownOpcode) = true := by decide

theorem test_decode_round_counts :
    decode 0x13000000 = .error .roundCountZero ∧ decode 0x13000041 = .error .roundCountAbove64 ∧
      decode 0x1300007F = .error .roundCountAbove64 := by decide

theorem test_table_word : decodeTableWord 32 0x13000010 = some (.round 16) ∧ decodeTableWord 32 0x13000041 = none := by
  decide

theorem test_fetch_word :
    after (step (State.reset.withFetchWord 32 0x12000000)) (fun t => (t.r, t.busy)) = some (IV, false) := by
  decide

/-! Primitive functions (section 6). -/

theorem test_rotl : rotl 0x12345678 7 = 0x1a2b3c09 ∧ rotl 0x7a879d8a 33 = 0xf50f3b14 := by decide

theorem test_permutations : P0 0xc067debb = 0xb2ad29f4 ∧ P1 0x12345678 = 0x05014549 := by decide

theorem test_boolean_switch :
    FF 15 0xf0f0f0f0 0xcccccccc 0xaaaaaaaa = 0x96969696 ∧ FF 16 0xf0f0f0f0 0xcccccccc 0xaaaaaaaa = 0xe8e8e8e8 ∧
      GG 15 0xf0f0f0f0 0xcccccccc 0xaaaaaaaa = 0x96969696 ∧ GG 16 0xf0f0f0f0 0xcccccccc 0xaaaaaaaa = 0xcacacaca := by
  decide

theorem test_bytes :
    be32 0x61 0x62 0x63 0x80 = 0x61626380 ∧ bytes32 0x66c7f0f4 = [0x66, 0xc7, 0xf0, 0xf4] ∧
      bytes64 768 = [0, 0, 0, 0, 0, 0, 3, 0] := by decide

/-! One step of each command. -/

theorem test_nop_keeps_done :
    after (exec .nop { State.reset with done := true }) State.status = some 0x00000002 := by decide

theorem test_init_keeps_scratch :
    after (exec .init { State.reset with done := true, b := abcBlock, j := 64 }) (fun t => (t.status, t.b)) =
      some (0x00000000, abcBlock) := by decide

theorem test_clear_unlocks_and_keeps_descriptors :
    after (exec .clear { abc with err := true, ecode := 4 }) (fun t => (t.status, t.msgBase, t.msgLen)) =
      some (0x00000000, 0x1000, 3) := by decide

/-- Section 3, "abc"; section 8, `STATUS` after `PADBLK` of a one-block message. -/
theorem test_padblk_abc :
    after (exec .padblk abc) (fun t => (t.b, t.status, t.blkidx)) = some (abcBlock, 0x00000008, 1) := by decide +kernel

/-- Section 8: a second `PADBLK` on a one-block message. -/
theorem test_padblk_past_last :
    after (exec .padblk { abc with blkidx := 1, fin := true }) State.status = some 0x0000004C := by decide

/-- Section 4: `W[16]`, `W[19]`, `W[67]`, `WP[12]`, `WP[63]`. -/
theorem test_expand_abc :
    after (exec .expand { State.reset with b := abcBlock })
        (fun t => [t.w.getD 16 0, t.w.getD 19 0, t.w.getD 67 0, t.wp.getD 12 0, t.wp.getD 63 0]) =
      some [0x9092e200, 0x719c70ed, 0xb99c0545, 0x9092e200, 0x49e260d5] := by decide +kernel

theorem test_ldreg_restarts :
    after (exec .ldreg { State.reset with j := 64, done := true }) (fun t => (t.r, t.status)) =
      some (IV, 0x00000000) := by decide

/-- Section 5, row 0. -/
theorem test_round_first :
    after (exec (.round 1) { State.reset with r := IV, w := (expandBlock abcBlock).1, wp := (expandBlock abcBlock).2 })
        (fun t => (t.r, t.j)) =
      some (⟨0xb9edc12b, 0x7380166f, 0x29657292, 0x172442d7, 0xb2ad29f4, 0xa96f30bc, 0xc550b189, 0xe38dee4d⟩, 1) := by
  decide +kernel

/-- Section 5, rows 14 to 16: the switch of the Boolean functions and of the constant. -/
theorem test_round_switch :
    after (exec (.round 2)
        { State.reset with
          r := ⟨0x7c529778, 0x24c95abc, 0x979ab113, 0x947a12d2, 0x3ee95933, 0x1a4a2554, 0xdb131b86, 0xac64ee8d⟩
          j := 15
          w := (expandBlock abcBlock).1
          wp := (expandBlock abcBlock).2 })
        (fun t => (t.r, t.j)) =
      some (⟨0x796afab1, 0x34d1691e, 0xa52ef0f8, 0x92b57849, 0x067550f5, 0x61f99646, 0xc999f74a, 0x2aa0d251⟩, 17) := by
  decide +kernel

/-- Section 5, the feed-forward of row 63. -/
theorem test_feedfwd_abc :
    after (exec .feedfwd
        { State.reset with
          r := ⟨0x1547e69b, 0x2bfa5f60, 0xc6d696bc, 0x069ae2e2, 0xe808f43b, 0x4ac3cf08, 0xcaf04e66, 0x3fb0a6ae⟩ })
        State.v =
      some ⟨0x66c7f0f4, 0x62eeedd9, 0xd1f2d46b, 0xdc10e4e2, 0x4167c487, 0x5cf2f7a2, 0x297da02b, 0x8f4ba8e0⟩ := by
  decide

/-- Section 8: `STATUS` after `COMPRESS` from reset. -/
theorem test_compress_status : after (exec .compress State.reset) State.status = some 0x00004000 := by decide

/-! Fault conditions and `STATUS` (section 8). -/

theorem test_digest_fault_conditions :
    (withMsg 0 0x2000000000000000).digestFault = some .len ∧
    (withMsg 0 0xFFFFFFFFFFFFFFFF).digestFault = some .len ∧
    (withMsg 0 0x1FFFFFFFFFFFFFFF).digestFault = none ∧
    (withMsg 0xFFFFFFFFFFFFFFFF 1).digestFault = none ∧
    (withMsg 0xFFFFFFFFFFFFFFFF 2).digestFault = some .range := by decide

theorem test_digest_fault_conditions_aw32 :
    ({ withMsg 0xFFFFFFFE 3 with cfg := { aw := 32 } } : State).digestFault = some .range ∧
    ({ withMsg 0x100000000 0 with cfg := { aw := 32 } } : State).digestFault = none ∧
    ({ withMsg 0x100000001 0 with cfg := { aw := 32 } } : State).digestFault = some .range := by decide

theorem test_hmac_fault_conditions :
    (withKey 0 0 0x1FFFFFFFFFFFFFC0).hmacFault = some .len ∧
    (withKey 0 0 0x1FFFFFFFFFFFFFBF).hmacFault = none ∧
    (withKey 0 0x2000000000000000 0).hmacFault = some .len ∧
    (withKey 0xFFFFFFFFFFFFFFC0 65 0).hmacFault = some .range ∧
    (withKey 0xFFFFFFFFFFFFFFC0 64 0).hmacFault = none := by decide

theorem test_padblk_round_fault_conditions :
    ({ withMsg 0 0 with blkidx := 1 } : State).padblkFault = some .seq ∧
    ({ withMsg 0 56 with blkidx := 1 } : State).padblkFault = none ∧
    ({ State.reset with j := 64 } : State).roundFault 1 = some .seq ∧
    ({ State.reset with j := 1 } : State).roundFault 64 = some .seq ∧
    ({ State.reset with j := 1 } : State).roundFault 63 = none := by decide

theorem test_status_of_faults :
    after (complete (pending 0x13000000 [])) State.status = some 0x00000014 ∧
    after (complete { pending 0x13000001 [] with j := 64, fin := true }) State.status = some 0x0000404C ∧
    after (complete { pending 0xFFFFFFFF [] with done := true }) State.status = some 0x00000014 ∧
    after (complete { locked with cmdreg := 0x20000000, busy := true }) State.status = some 0x00000014 := by
  decide

/-! Registers (section 8, "Register access"). -/

theorem test_registers_after_reset :
    [0, 1, 2, 3, 16, 23, 12, 24, 63].map State.reset.regRead =
      [0x534D3301, 0, 0, 0, 0x7380166f, 0xb0fb0e4e, 0, 0, 0] := by decide

theorem test_status_while_pending :
    State.status (pending 0x20000000 []) = 0x00000001 ∧ (State.reset.regWrite 16 0xdeadbeef) = State.reset := by
  decide

/-- Section 9, P1 and P3: the script lines as transactions. -/
theorem test_script_lines :
    go .digest = [.write 1 0x20000000, .wait] ∧ memLine 0x1000 [0x61, 0x62] = [.mem 0x1000 0x61, .mem 0x1001 0x62] ∧
      setKey 0x2000 3 = [.write 8 0x2000, .write 9 0, .write 10 3, .write 11 0] := by decide

/-- R75: `WAIT` is a repeated `RD STATUS`; a poll with `BUSY = 1` and the last one, with `BUSY = 0`, are both answered. -/
theorem test_wait_polls_status :
    after (step (pendingFor 1 0 [.wait])) (fun t => (t.answers, t.script, t.busy)) = some ([1], [.wait], true) ∧
      after (step (withScript [.wait])) (fun t => (t.answers, t.script)) = some ([0], []) := by decide

/-- R75 and R209: while a command is pending a `MEM` line waits, and the wider memory write does not. -/
theorem test_memory_lines_while_pending :
    after (step (pendingFor 1 0 [.mem 5 1])) (fun t => (t.mem, t.script, t.busy)) = some ([], [.mem 5 1], false) ∧
      after (step (pendingFor 1 0 [.store 5 1])) (fun t => (t.mem, t.script, t.busy)) = some ([(5, 1)], [], true) := by
  decide

/-! Witnesses: for each statement with hypotheses, values that meet them together. -/

/-- `DecodeOfEncodeIsTheCommand`, `EncodeOfDecodeIsTheWord`. -/
theorem witness_well_formed :
    (Instr.round 1).WellFormed ∧ (Instr.round 64).WellFormed ∧ Instr.hmac.WellFormed ∧
      decode 0x13000040 = .ok (.round 64) := by decide

/-- `IllegalWordsRaiseIll`: an illegal word latched, unlocked and locked. -/
theorem witness_illegal :
    decode (pending 0x13000041 []).cmdreg = .error .roundCountAbove64 ∧ (pending 0x13000041 []).err = false ∧
      decode ({ locked with cmdreg := 0xFFFFFFFF } : State).cmdreg = .error .unknownOpcode ∧ locked.err = true := by
  decide

/-- `RotationMovesBits`, `BooleanFunctionsBitByBit`: the top bit, and both sides of the switch. -/
theorem witness_bits : (31 : Nat) < 32 ∧ (15 : Nat) ≤ 15 ∧ (16 : Nat) ≤ 16 ∧ (rotl 0x80000000 1).getLsbD 0 = true := by
  decide

/-- `ByteConversionsAreBigEndian`: the greatest bit length of a message. -/
theorem witness_bytes64 :
    (2 ^ 64 - 8 : Nat) < 2 ^ 64 ∧ (7 : Nat) < 8 ∧
      bytes64 (2 ^ 64 - 8) = [0xff, 0xff, 0xff, 0xff, 0xff, 0xff, 0xff, 0xf8] := by decide

/-- `ZeroBitCountIsLeast`: both sides of 447, and another count that reaches 448. -/
theorem witness_zero_bits :
    (447 % 512 : Nat) ≤ 447 ∧ 448 ≤ (448 % 512 : Nat) ∧ ((0 + 1 + 959) % 512 : Nat) = 448 ∧ kbits 0 = 447 := by
  decide

/-- `PaddedLengths`, `PaddingProperties`, `DigestChainsBlocksInOrder`: the longest message the length field counts, and two equal padded forms. -/
theorem witness_lengths :
    (2 ^ 61 - 1 : Nat) < 2 ^ 61 ∧ nblocks (2 ^ 61 - 1) = 2 ^ 55 + 1 ∧ ([0x61] : Bytes).length < 2 ^ 61 ∧
      pad [0x61] = pad [0x61] := by decide

/-- `PaddedBytesByPosition`: the four kinds of position at their boundaries, and a last block without message bytes. -/
theorem witness_positions :
    padlen 3 = 64 ∧ (2 : Nat) < 3 ∧ (55 : Nat) < padlen 3 - 8 ∧ (63 : Nat) < padlen 3 ∧ (1 : Nat) < nblocks 56 := by
  decide

/-- `PaddedBytesByPosition`, last clause: two strings that differ behind block 0 alone. -/
theorem witness_same_block :
    (List.replicate 65 0x61 : Bytes).length = (List.replicate 64 0x61 ++ [0x62] : Bytes).length ∧
    (∀ p : Nat, 64 * 0 ≤ p → p < min (64 * 0 + 64) (List.replicate 65 0x61 : Bytes).length →
      (List.replicate 65 0x61 : Bytes)[p]? = (List.replicate 64 0x61 ++ [0x62] : Bytes)[p]?) ∧
    (List.replicate 65 0x61 : Bytes) ≠ List.replicate 64 0x61 ++ [0x62] := by
  refine ⟨rfl, fun p _ h => ?_, by decide⟩
  have h64 : p < 64 := Nat.lt_of_lt_of_le h (Nat.min_le_left _ _)
  rw [List.getElem?_append_left (by simpa using h64), List.getElem?_replicate, List.getElem?_replicate,
    if_pos h64, if_pos (by omega)]

/-- `ExpansionOfBlock`, `CompressionIsSixtyFourRounds`: the ends of the index ranges, and two files that differ in
`W[67]` alone. -/
theorem witness_expansion :
    (15 : Nat) < 16 ∧ (16 : Nat) ≤ 16 ∧ (67 : Nat) ≤ 67 ∧ (63 : Nat) ≤ 63 ∧
    (∀ j : Nat, j < 64 →
      ((Vector.replicate 68 (0 : Word)).set 67 1).getD j 0 = (Vector.replicate 68 (0 : Word)).getD j 0) ∧
    (Vector.replicate 68 (0 : Word)).set 67 1 ≠ Vector.replicate 68 0 := by decide

/-- The statements about commands on an unlocked block (`NOP` and `CLEAR` need no hypothesis), with `R = 0` for
`FEEDFWD`; and a locked block. -/
theorem witness_unlocked :
    State.reset.err = false ∧ State.reset.r = ⟨0, 0, 0, 0, 0, 0, 0, 0⟩ ∧ locked.err = true := by decide

/-- `PadblkProducesNextBlock`, a state for each clause: `MSG_LEN = 2^61`; the range one past the top; no such block; the
last block of two, and a range that ends at the top. -/
theorem witness_padblk :
    2 ^ 61 ≤ (withMsg 0 0x2000000000000000).msgLen.toNat ∧
    ((withMsg 0xFFFFFFFFFFFFFFFF 2).msgLen.toNat < 2 ^ 61 ∧
      2 ^ 64 < (withMsg 0xFFFFFFFFFFFFFFFF 2).msgBase.toNat + (withMsg 0xFFFFFFFFFFFFFFFF 2).msgLen.toNat) ∧
    nblocks ({ withMsg 0 0 with blkidx := 1 } : State).msgLen.toNat ≤ 1 ∧
    ({ withMsg 0 56 with blkidx := 1 } : State).blkidx.toNat < nblocks 56 ∧
    (withMsg 0xFFFFFFFFFFFFFFFF 1).msgBase.toNat + (withMsg 0xFFFFFFFFFFFFFFFF 1).msgLen.toNat ≤ 2 ^ 64 ∧
    (withMsg 0 0).cfg.aw = 64 ∧ (withMsg 0 0).err = false := by decide

/-- `RoundRunsNextRounds`, a state for each clause: one round too many, exactly 64, and the three kinds of bad word. -/
theorem witness_round :
    64 < ({ State.reset with j := 1 } : State).j.toNat + (64 : BitVec 7).toNat ∧
    ({ State.reset with j := 1 } : State).j.toNat + (63 : BitVec 7).toNat ≤ 64 ∧ 1 ≤ (63 : BitVec 7).toNat ∧
    ((0x13000080 : Word).extractLsb' 24 8 = 0x13 ∧ (0x13000080 : Word).extractLsb' 7 17 ≠ 0) ∧
    ((0x13000000 : Word).extractLsb' 24 8 = 0x13 ∧ (0x13000000 : Word).extractLsb' 0 7 = 0) ∧
    ((0x13000041 : Word).extractLsb' 24 8 = 0x13 ∧ 65 ≤ ((0x13000041 : Word).extractLsb' 0 7).toNat) := by
  decide

/-- `DigestComputesSm3`, a state for each clause. -/
theorem witness_digest :
    (2 ^ 61 ≤ (withMsg 0 0x2000000000000000).msgLen.toNat) ∧
    (let s := withMsg 0xFFFFFFFFFFFFFFFF 2
     s.err = false ∧ s.msgLen.toNat < 2 ^ 61 ∧ 2 ^ s.cfg.aw < s.msgBase.toNat + s.msgLen.toNat) ∧
    (let s := withMsg 0xFFFFFFFFFFFFFFFF 1
     s.err = false ∧ s.msgLen.toNat < 2 ^ 61 ∧ s.msgBase.toNat + s.msgLen.toNat ≤ 2 ^ s.cfg.aw) := by decide

/-- `HmacComputesHmac`, states for each clause: a key and a message one too long; a key and a message past the top; a key
that ends at the top. -/
theorem witness_hmac :
    (64 < (withKey 0 0x2000000000000000 0).keyLen.toNat ∧ 2 ^ 61 ≤ (withKey 0 0x2000000000000000 0).keyLen.toNat) ∧
    2 ^ 61 ≤ (withKey 0 0 0x1FFFFFFFFFFFFFC0).msgLen.toNat + 64 ∧
    (let s := withKey 0xFFFFFFFFFFFFFFC0 65 0
     s.err = false ∧ s.keyLen.toNat < 2 ^ 61 ∧ s.msgLen.toNat + 64 < 2 ^ 61 ∧
       2 ^ s.cfg.aw < s.keyBase.toNat + s.keyLen.toNat) ∧
    (let s := withMsg 0xFFFFFFFFFFFFFFFF 2
     s.keyLen.toNat < 2 ^ 61 ∧ s.msgLen.toNat + 64 < 2 ^ 61 ∧ 2 ^ s.cfg.aw < s.msgBase.toNat + s.msgLen.toNat) ∧
    (let s := withKey 0xFFFFFFFFFFFFFFC0 64 0x1FFFFFFFFFFFFFBF
     s.err = false ∧ s.keyLen.toNat < 2 ^ 61 ∧ s.msgLen.toNat + 64 < 2 ^ 61 ∧
       s.keyBase.toNat + s.keyLen.toNat ≤ 2 ^ s.cfg.aw ∧ s.msgBase.toNat + s.msgLen.toNat ≤ 2 ^ s.cfg.aw) := by
  decide

/-- `ComponentSequenceMatchesDigest`. -/
theorem witness_components : abc.err = false ∧ abc.digestFault = none := by decide

/-- `DigestIgnoresScratch`: two states alike but for `V`, scratch, counters and key. -/
theorem witness_scratch :
    let s' : State := { abc with v := zeroWords8, r := IV, j := 64, blkidx := 5, done := true, keyLen := 9 }
    abc.cfg = s'.cfg ∧ abc.mem = s'.mem ∧ abc.msgBase = s'.msgBase ∧ abc.msgLen = s'.msgLen ∧ abc.err = false ∧
      s'.err = false := by decide

/-- `HmacKeyNormalisation`: a key of 65 bytes and one of 63. -/
theorem witness_keys :
    64 < (List.replicate 65 0x0b : Bytes).length ∧ (List.replicate 63 0x0b : Bytes).length < 64 := by decide

/-- `FaultConditions`: a state for each of its four answers, with the command that gives it. -/
theorem witness_faults :
    after (exec .padblk (withMsg 0 0x2000000000000000)) State.ecode = some 2 ∧
    after (exec .padblk (withMsg 0xFFFFFFFFFFFFFFFF 2)) State.ecode = some 3 ∧
    after (exec .padblk { withMsg 0 0 with blkidx := 1 }) State.ecode = some 4 ∧
    after (exec .padblk (withMsg 0 0)) State.err = some false := by decide

/-- `FaultsArePrecise`: a complete step that ends locked. -/
theorem witness_precise :
    (pending 0x13000041 []).err = false ∧ ∃ t, complete (pending 0x13000041 []) = .next t ∧ t.err = true :=
  ⟨rfl, _, rfl, rfl⟩

/-- `LockedBlockDiscards`: a locked block with `DIGEST` and with an illegal word latched; another register than
`STATUS`, and than `CMD`. -/
theorem witness_locked :
    locked.err = true ∧ decode ({ locked with cmdreg := 0x20000000 } : State).cmdreg ≠ .ok .clear ∧
      decode ({ locked with cmdreg := 0xFFFFFFFF } : State).cmdreg ≠ .ok .clear ∧ (16 : BitVec 6) ≠ 2 ∧
      (4 : BitVec 6) ≠ 1 := by decide

/-- `OnlyClearOrResetUnlocks`: a step of a locked block of each kind. -/
theorem witness_unlock :
    after (step { locked with script := [.write 4 1] }) State.err = some true ∧
    after (step { locked with cmdreg := 0x02000000, busy := true }) State.err = some false ∧
    after (step { locked with script := [.reset] }) State.err = some false := by decide

/-- `MacroCommandsAloneSetDone`: a step that sets `DONE`, and a completion of another command. -/
theorem witness_done :
    (pending 0x20000000 []).done = false ∧ after (step (pending 0x20000000 [])) State.done = some true ∧
    after (complete { pending 0x12000000 [] with done := true }) State.done = some false ∧
    decode 0x12000000 = .ok .ldreg := by decide

/-- `StepRunsDecodedCommand`, a state for each clause: the HOST waiting; its steps used up; a step left to it; an idle
block. -/
theorem witness_step :
    (let s := pendingFor 1 0x12000000 [.write 1 0]
     s.busy = true ∧ s.hostWaits = true ∧ decode s.cmdreg = .ok .ldreg) ∧
    (let s := pending 0x12000000 [.read 2]
     s.busy = true ∧ s.slack = 0 ∧ decode s.cmdreg = .ok .ldreg) ∧
    (Instr.round 64).WellFormed ∧
    (let s := pendingFor 1 0x12000000 [.read 2]
     s.busy = true ∧ s.hostWaits = false ∧ 0 < s.slack) ∧
    State.reset.busy = false := by decide

/-- `AcceptLatchesCommand`, `RegisterWrites`, `RegisterReads`, `StatusLayout`: an idle block and a HOST about to write a
command; a read performed; the indices at the ends of the reserved ranges. -/
theorem witness_idle :
    (withScript [.write 1 0xFFFFFFFF]).busy = false ∧
    (withScript [.write 1 0xFFFFFFFF]).script = .write 1 0xFFFFFFFF :: [] ∧
    after (State.reset.perform (.read 2)) State.answers = some [0] ∧
    (3 : BitVec 6) ∈ ([3, 14, 15] : List (BitVec 6)) ∧ 24 ≤ (24 : BitVec 6).toNat ∧ 24 ≤ (63 : BitVec 6).toNat ∧
    ((3 : BitVec 6) ≠ 1 ∧ (3 : BitVec 6).toNat < 4) ∧ ((12 : BitVec 6) ≠ 1 ∧ 12 ≤ (12 : BitVec 6).toNat) := by
  decide

/-- `RegisterAccessIsHeld`, a state for each clause: a held write and a held read; a read and a write of an idle block; a
read of `ID` and of `STATUS`, and a `WAIT`, with a command pending and a step left to the HOST; a `WAIT` otherwise. -/
theorem witness_held :
    ((pending 0x01000000 [.write 4 5]).busy = true ∧ (pending 0x01000000 [.write 4 5]).script = .write 4 5 :: []) ∧
    ((pending 0x01000000 [.read 16]).script = .read 16 :: [] ∧ (pending 0x01000000 [.read 16]).busy = true ∧
      (16 : BitVec 6) ≠ 0 ∧ (16 : BitVec 6) ≠ 2) ∧
    ((withScript [.read 16]).script = .read 16 :: [] ∧ (withScript [.write 4 5]).script = .write 4 5 :: [] ∧
      (withScript [.wait]).script = .wait :: [] ∧ (withScript [.wait]).busy = false) ∧
    ((pendingFor 1 0 [.read 0]).script = .read 0 :: [] ∧ (pendingFor 1 0 [.read 2]).script = .read 2 :: [] ∧
      (pendingFor 1 0 [.wait]).script = .wait :: [] ∧ (pendingFor 1 0 [.wait]).busy = true ∧
      0 < (pendingFor 1 0 [.wait]).slack ∧ (pending 0 [.wait]).slack = 0) := by decide

/-- `RegisterReadBack`: the first and the last descriptor half, and two different halves of one register. -/
theorem witness_read_back :
    4 ≤ (4 : BitVec 6).toNat ∧ (11 : BitVec 6).toNat ≤ 11 ∧ (4 : BitVec 6) ≠ 1 ∧ (5 : BitVec 6) ≠ 4 := by decide

/-- `DigestRegistersSerialise`: the last byte. -/
theorem witness_serialise : (3 : Nat) < 4 ∧ (ser IV).getD 31 0 = 0x4e := by decide

/-- `PendingCommandEnds`, both ends: the completion after the HOST's steps are used up, and a write past the top. -/
theorem witness_pending :
    (pendingFor 1 0x01000000 [.wait]).busy = true ∧
    (∃ t, Sys2Proof.core.run 2 (pendingFor 1 0x01000000 [.wait]) = .next t ∧ t.busy = false) ∧
    Transaction.store (2 ^ 64) 1 ∈ (pendingFor 1 0 [.store (2 ^ 64) 1]).script ∧
    Sys2Proof.core.run 1 (pendingFor 1 0 [.store (2 ^ 64) 1]) = .fault .noSuchAddress :=
  ⟨rfl, ⟨_, rfl, rfl⟩, by decide, rfl⟩

/-- `OnlyHostMemoryWritesStop`, a step for each clause: the first address past the top, on an idle block by a `MEM` line
and by the wider write, and with a command pending; the last byte of the pending command's message. -/
theorem witness_stops :
    step (withScript [.mem (2 ^ 64) 1]) = .fault .noSuchAddress ∧
    step (withScript [.store (2 ^ 64) 1]) = .fault .noSuchAddress ∧
    step (padblkAbc [.store (2 ^ 64) 1]) = .fault .noSuchAddress ∧
    step (padblkAbc [.store 0x1002 1]) = .refused .stabilityDutyBroken ∧
    (2 ^ (withScript []).cfg.aw ≤ 2 ^ 64 ∧ (withScript [.mem (2 ^ 64) 1]).busy = false) ∧
    ((padblkAbc [.store 0x1002 1]).busy = true ∧ 0 < (padblkAbc [.store 0x1002 1]).slack ∧
      0x1002 < 2 ^ (padblkAbc []).cfg.aw ∧ (padblkAbc []).inPendingFootprint 0x1002 = true) :=
  ⟨rfl, rfl, rfl, rfl, by decide, by decide⟩

/-- `FootprintDecidesEffect`, `ControlFlowIgnoresData`: memories that differ outside the footprint of `PADBLK`. -/
theorem witness_footprint :
    (∀ addr : Nat, abc.inFootprint .padblk addr = true →
      memByte (memSet abc.mem 0x1003 0xff) addr = memByte abc.mem addr) ∧
    ∃ t, exec .padblk abc = .next t := by
  refine ⟨fun addr h => memByte_memSet_other _ _ fun he => ?_, exec_next _ _⟩
  subst he
  exact absurd h (by decide)

/-- `WriteOutsideFootprintCommutes`: the addresses just outside the message. -/
theorem witness_commutes :
    let s : State := { abc with cmdreg := 0x10000000, busy := true }
    s.busy = true ∧ 0x1003 < 2 ^ s.cfg.aw ∧ s.inPendingFootprint 0x1003 = false ∧
      s.inPendingFootprint 0x0FFF = false ∧ s.inPendingFootprint 0x1002 = true := by decide

/-- `MemoryWriteStoresOneByte`, a state for each clause: the top address of an idle block, and an address outside the
footprint of a pending command; a `MEM` line and the wider write, idle and with a command pending. -/
theorem witness_memory_write :
    (memWF State.reset.mem ∧ 2 ^ 64 - 1 < 2 ^ State.reset.cfg.aw ∧ State.reset.busy = false ∧ memWF abc.mem ∧
      (padblkAbc []).inPendingFootprint 0x1003 = false) ∧
    ((withScript [.mem 5 1]).script = .mem 5 1 :: [] ∧ (withScript [.store 5 1]).script = .store 5 1 :: [] ∧
      (withScript [.mem 5 1]).busy = false) ∧
    ((padblkAbc [.mem 5 1]).script = .mem 5 1 :: [] ∧ (padblkAbc [.store 5 1]).script = .store 5 1 :: [] ∧
      (padblkAbc [.store 5 1]).busy = true ∧ 0 < (padblkAbc [.store 5 1]).slack ∧
      (pending 0 [.store 5 1]).slack = 0) := by decide

/-- `MemoryIsCanonical`: a memory in canonical form, reached by two orders of writing. -/
theorem witness_canonical :
    memWF (memSet (memSet [] 5 1) 3 2) ∧ memSet (memSet [] 5 1) 3 2 = memSet (memSet [] 3 2) 5 1 := by decide

/-- `ResetEventRestoresBlock`, a state for each clause: idle; with a command pending and the HOST's steps used up; with
one step left to it. -/
theorem witness_reset_event :
    ((withScript [.reset]).script = .reset :: [] ∧ (withScript [.reset]).busy = false) ∧
    ((pending 0x20000000 [.reset]).script = .reset :: [] ∧ (pending 0x20000000 [.reset]).busy = true ∧
      (pending 0x20000000 [.reset]).slack = 0) ∧
    0 < (pendingFor 1 0x20000000 [.reset]).slack ∧
    after (step (pendingFor 1 0x20000000 [.reset])) State.status = some 0 := by decide

/-- `StepKeepsInvariant`: a locked block has the invariant, and it steps. -/
theorem witness_invariant : Inv locked ∧ ∃ t, step locked = .next t :=
  ⟨⟨by decide, by decide, by decide, by decide, by decide, by decide, by decide,
    by decide, by decide, by decide, by decide, by decide⟩, _, rfl⟩

/-! The macro commands: the two slow tests of the file, last. -/

/-- Section 2, "abc"; section 8, `STATUS` after a successful `DIGEST`. -/
theorem test_digest_abc :
    after (exec .digest abc) (fun t => (t.v, t.status)) =
      some (⟨0x66c7f0f4, 0x62eeedd9, 0xd1f2d46b, 0xdc10e4e2, 0x4167c487, 0x5cf2f7a2, 0x297da02b, 0x8f4ba8e0⟩,
        0x00000002) := by decide +kernel

/-- Section 7, H1. -/
theorem test_hmac_key_abc :
    after (exec .hmac abc) (fun t => (t.v, t.status)) =
      some (⟨0x28e63256, 0xe7c5a087, 0xb1f07326, 0x5dc53092, 0x163f7b82, 0x729735d0, 0x6f28f10a, 0xf9d52393⟩,
        0x00000002) := by decide +kernel

end Sys2Proof.Tests
end

section
/-! The families of the machine's state: its values after reset, the invariant and who sets `DONE`, what the complete
step keeps, and the register space (spec/10_state.md). -/

namespace Sys2Proof.Machine

open State

/-! What the HOST's transactions and the step can do, case by case. -/

/-- A HOST memory write that answers a state stores one byte inside the memory (R209). -/
theorem memWrite_next {s t : State} {addr : Nat} {byte : Byte} (h : s.memWrite addr byte = .next t) :
    addr < 2 ^ s.cfg.aw ∧ t = { s with mem := memSet s.mem addr byte } := by
  rcases memWrite_cases s addr byte with ⟨-, hw⟩ | ⟨-, -, hw⟩ | ⟨hlt, -, hw⟩ <;> rw [hw] at h <;> cases h
  exact ⟨hlt, rfl⟩

/-- Everything a transaction of the HOST can do: a register write, a read (a poll of `WAIT` goes back to the script), one
byte of memory, or the reset event. -/
theorem perform_cases {s t : State} {tr : Transaction} (h : s.perform tr = .next t) :
    (∃ idx data, t = s.regWrite idx data) ∨ (∃ idx script, t = { s.readReg idx with script := script }) ∨
      (∃ addr byte, addr < 2 ^ s.cfg.aw ∧ t = { s with mem := memSet s.mem addr byte }) ∨ t = s.resetBlock := by
  cases tr with
  | write idx data => cases h; exact .inl ⟨idx, data, rfl⟩
  | read idx => cases h; exact .inr (.inl ⟨idx, s.script, rfl⟩)
  | wait => cases h; exact .inr (.inl ⟨2, _, rfl⟩)
  | mem addr byte => exact .inr (.inr (.inl ⟨addr, byte, memWrite_next h⟩))
  | store addr byte => exact .inr (.inr (.inl ⟨addr, byte, memWrite_next h⟩))
  | reset => cases h; exact .inr (.inr (.inr rfl))

/-- The HOST does nothing, or it performs the transaction that has left its script. -/
theorem hostMove_cases {s t : State} (h : s.hostMove = .next t) :
    t = s ∨ ∃ tr rest, perform { s with script := rest } tr = .next t := by
  unfold hostMove at h
  split at h
  · cases h; exact .inl rfl
  · exact .inr ⟨_, _, h⟩

/-- A step that answers a state is the CORE's complete step or a move of the HOST. -/
theorem step_next_cases {s t : State} (h : step s = .next t) :
    (s.busy = true ∧ complete s = .next t) ∨ s.spend.hostMove = .next t ∨ s.hostMove = .next t := by
  rcases step_cases s with ⟨hb, -, hs⟩ | ⟨-, -, -, hs⟩ | ⟨-, hs⟩ <;> rw [hs] at h
  · exact .inl ⟨hb, h⟩
  · exact .inr (.inl h)
  · exact .inr (.inr h)

/-! The invariant where no command takes effect: reset, and updates of what it does not speak of. -/

/-- The reset values of R39 meet the invariant beside any admitted parameter and memory. -/
theorem inv_resetWith {cfg : Config} {mem : Memory} (hc : cfg.wf) (hm : memWF mem)
    (hb : ∀ c ∈ mem, c.1 < 2 ^ cfg.aw) (script : List Transaction) (answers : List Word) (slack turn : Nat) :
    Inv (resetWith cfg mem script answers slack turn) where
  cfg_wf := hc
  mem_wf := hm
  mem_bound := hb
  j_le := Nat.zero_le _
  blkidx_le := Nat.zero_le _
  ecode_le := Nat.zero_le _
  ecode_zero_iff := iff_of_true rfl rfl
  err_done := fun _ => rfl
  fin_blkidx := nofun
  k_zero := rfl
  i_zero := rfl
  done_scratch := nofun

/-- The invariant does not speak of `CMDREG`, `BUSY`, the descriptors, the HOST's record and the schedule. -/
theorem Inv.update_outside {s : State} (h : Inv s) (cmdreg : Word) (busy : Bool)
    (msgBase msgLen keyBase keyLen : BitVec 64) (script : List Transaction) (answers : List Word) (slack turn : Nat) :
    Inv { s with
      cmdreg := cmdreg, busy := busy, msgBase := msgBase, msgLen := msgLen, keyBase := keyBase, keyLen := keyLen,
      script := script, answers := answers, slack := slack, turn := turn } :=
  ⟨h.cfg_wf, h.mem_wf, h.mem_bound, h.j_le, h.blkidx_le, h.ecode_le, h.ecode_zero_iff, h.err_done, h.fin_blkidx,
    h.k_zero, h.i_zero, h.done_scratch⟩

theorem Inv.notBusy {s : State} (h : Inv s) : Inv (notBusy s) := h.update_outside ..

theorem Inv.spend {s : State} (h : Inv s) : Inv s.spend := h.update_outside ..

theorem Inv.regWrite {s : State} (h : Inv s) (idx : BitVec 6) (data : Word) : Inv (s.regWrite idx data) := by
  rw [regWrite_eq]; exact h.update_outside ..

theorem Inv.resetBlock {s : State} (h : Inv s) : Inv s.resetBlock :=
  inv_resetWith h.cfg_wf h.mem_wf h.mem_bound ..

theorem Inv.clearBlock {s : State} (h : Inv s) : Inv s.clearBlock := h.resetBlock.update_outside ..

/-- A write inside the memory keeps the canonical form and the bound (R50). -/
theorem Inv.memSet {s : State} (h : Inv s) {addr : Nat} (ha : addr < 2 ^ s.cfg.aw) (byte : Byte) :
    Inv { s with mem := memSet s.mem addr byte } :=
  { h with
    mem_wf := memWF_memSet addr byte h.mem_wf
    mem_bound := fun c hc => by
      rcases mem_memSet hc with ⟨rfl, -⟩ | hm
      · exact ha
      · exact h.mem_bound c hm }

/-- Every code of a fault is one of 1..4 (R220). -/
theorem faultCode_bounds (c : FaultCode) : faultCode c ≠ 0 ∧ (faultCode c).toNat ≤ 4 := by cases c <;> decide

/-- Fault entry sets `ERR` with a code and clears `DONE` (R228). -/
theorem Inv.raise {s : State} (h : Inv s) (c : FaultCode) : Inv (s.raise c) := by
  cases hs : s.err with
  | true => rw [raise_locked hs]; exact h
  | false =>
    obtain ⟨hne, hle⟩ := faultCode_bounds c
    rw [raise_unlocked hs]
    exact { h with
      ecode_le := hle
      ecode_zero_iff := iff_of_false hne nofun
      err_done := fun _ => rfl
      done_scratch := nofun }

/-! The invariant under the effects of the commands. -/

/-- A command on the data path that ends with `DONE = 0` keeps the invariant if it keeps the counters in range and the
transients. -/
theorem Inv.of_keeps {s t : State} (h : Inv s) (hk : EffectKeeps s t) (hd : t.done = false) (hkk : t.k = s.k)
    (hi : t.i = s.i) (hj : t.j.toNat ≤ 64) (hb : t.blkidx.toNat ≤ 2 ^ 55 + 1) (hf : t.fin = true → t.blkidx ≠ 0) :
    Inv t where
  cfg_wf := hk.cfg ▸ h.cfg_wf
  mem_wf := hk.mem ▸ h.mem_wf
  mem_bound := by rw [hk.mem, hk.cfg]; exact h.mem_bound
  j_le := hj
  blkidx_le := hb
  ecode_le := hk.ecode ▸ h.ecode_le
  ecode_zero_iff := by rw [hk.ecode, hk.err]; exact h.ecode_zero_iff
  err_done := fun _ => hd
  fin_blkidx := hf
  k_zero := hkk.trans h.k_zero
  i_zero := hi.trans h.i_zero
  done_scratch := fun hc => by rw [hd] at hc; cases hc

/-- FINISH leaves all scratch and both transients zero (R168). -/
theorem Inv.finish {s : State} (h : Inv s) (herr : s.err = false) (v : Words8) :
    Inv ({ s with v := v } : State).finish where
  cfg_wf := h.cfg_wf
  mem_wf := h.mem_wf
  mem_bound := h.mem_bound
  j_le := Nat.zero_le _
  blkidx_le := Nat.zero_le _
  ecode_le := h.ecode_le
  ecode_zero_iff := h.ecode_zero_iff
  err_done := fun hc => by rw [finish_err, herr] at hc; cases hc
  fin_blkidx := nofun
  k_zero := rfl
  i_zero := rfl
  done_scratch := fun _ => ⟨rfl, rfl, rfl, rfl, rfl, rfl, rfl⟩

/-- Where `PADBLK` raises no fault there is a next block, and a message has at most `2^55 + 1` of them (R28, R117). -/
theorem blkidx_lt_of_padblkFault_none {s : State} (h : s.padblkFault = none) : s.blkidx.toNat < 2 ^ 55 + 1 := by
  unfold padblkFault nblocks at h
  split at h
  · cases h
  · split at h
    · cases h
    · split at h
      · cases h
      · omega

/-- Where `ROUND N` raises no fault the rounds end at `J <= 64` (R145). -/
theorem doRounds_j_le {s : State} {n : BitVec 7} (h : s.roundFault n = none) : (s.doRounds n.toNat).j.toNat ≤ 64 := by
  unfold roundFault at h
  split at h
  · cases h
  · rw [doRounds_j, BitVec.ofNat_toNat, BitVec.setWidth_eq, BitVec.toNat_add]
    omega

/-- `PADBLK` advances `BLKIDX` without overflow (R28). -/
theorem padblkEffect_blkidx_toNat {s : State} (h : s.padblkFault = none) :
    (padblkEffect s).blkidx.toNat = s.blkidx.toNat + 1 := by
  have hlt := blkidx_lt_of_padblkFault_none h
  rw [padblkEffect_blkidx, BitVec.toNat_add, show (1 : BitVec 56).toNat = 1 from rfl]
  omega

/-- `PADBLK` keeps the invariant: `FIN` rises only where `BLKIDX` has advanced (R116). -/
theorem Inv.padblkEffect {s : State} (h : Inv s) (hf : s.padblkFault = none) : Inv (padblkEffect s) := by
  have hb := padblkEffect_blkidx_toNat hf
  have hlt := blkidx_lt_of_padblkFault_none hf
  refine h.of_keeps (effectOf_keeps (i := .padblk) nofun s) ?_ ?_ ?_ ?_ ?_ ?_
  · simp
  · simp
  · simp
  · simpa using h.j_le
  · omega
  · intro _ hz
    rw [hz] at hb
    exact absurd hb (by simp)

/-- A command that ends with `DONE = 0`, moves neither `BLKIDX` nor `FIN`, and leaves `J` in range keeps the
invariant: the word expander, the compression engine and the feed-forward are of this kind. -/
theorem Inv.of_keeps_blkidx {s t : State} (h : Inv s) (hk : EffectKeeps s t) (hd : t.done = false) (hkk : t.k = s.k)
    (hi : t.i = s.i) (hj : t.j.toNat ≤ 64) (hb : t.blkidx = s.blkidx) (hf : t.fin = s.fin) : Inv t :=
  h.of_keeps hk hd hkk hi hj (hb ▸ h.blkidx_le) (by rw [hf, hb]; exact h.fin_blkidx)

/-- The effect of every command that raises no fault on an unlocked block keeps the invariant. -/
theorem Inv.effectOf {i : Instr} {s : State} (h : Inv s) (hc : i ≠ .clear) (herr : s.err = false)
    (hf : s.faultOf i = none) : Inv (effectOf i s) := by
  have hk := effectOf_keeps hc s
  cases i with
  | nop => exact h
  | clear => exact absurd rfl hc
  | init => exact h.of_keeps hk rfl rfl rfl (Nat.zero_le _) (Nat.zero_le _) nofun
  | padblk => exact h.padblkEffect hf
  | expand => exact h.of_keeps_blkidx hk rfl rfl rfl h.j_le rfl rfl
  | ldreg => exact h.of_keeps_blkidx hk rfl rfl rfl (Nat.zero_le _) rfl rfl
  | round n => exact h.of_keeps_blkidx hk rfl rfl rfl (doRounds_j_le hf) rfl rfl
  | feedfwd => exact h.of_keeps_blkidx hk rfl rfl rfl h.j_le rfl rfl
  | compress => apply h.of_keeps_blkidx hk <;> simp [Machine.effectOf]
  | digest => rw [Machine.effectOf, digestEffect_eq]; exact h.finish herr _
  | hmac => rw [Machine.effectOf, hmacEffect_eq]; exact h.finish herr _

/-! The invariant under every step. -/

theorem Inv.exec {i : Instr} {s t : State} (h : Inv s) (he : exec i s = .next t) : Inv t := by
  rcases exec_cases he with ⟨-, rfl⟩ | ⟨-, -, rfl⟩ | ⟨-, -, c, -, rfl⟩ | ⟨hc, herr, hf, rfl⟩
  · exact h.clearBlock
  · exact h
  · exact h.raise c
  · exact h.effectOf hc herr hf

theorem Inv.complete {s t : State} (h : Inv s) (hs : complete s = .next t) : Inv t := by
  rcases complete_cases hs with ⟨-, rfl⟩ | ⟨i, u, -, he, rfl⟩
  · exact (h.raise .ill).notBusy
  · exact (h.exec he).notBusy

theorem Inv.perform {s t : State} {tr : Transaction} (h : Inv s) (hs : s.perform tr = .next t) : Inv t := by
  rcases perform_cases hs with ⟨idx, data, rfl⟩ | ⟨idx, script, rfl⟩ | ⟨addr, byte, ha, rfl⟩ | rfl
  · exact h.regWrite idx data
  · exact h.update_outside ..
  · exact h.memSet ha byte
  · exact h.resetBlock

theorem Inv.hostMove {s t : State} (h : Inv s) (hs : s.hostMove = .next t) : Inv t := by
  rcases hostMove_cases hs with rfl | ⟨tr, rest, hp⟩
  · exact h
  · have hrest : Inv { s with script := rest } := h.update_outside ..
    exact hrest.perform hp

/-- Settles O60: the complete step and the HOST's moves each keep the invariant. -/
theorem stepKeepsInvariant : Obligations.StepKeepsInvariant := by
  intro s t h hs
  rcases step_next_cases hs with ⟨-, hc⟩ | hm | hm
  · exact h.complete hc
  · exact h.spend.hostMove hm
  · exact h.hostMove hm

/-- Settles O59: the reset values beside `AW = 64` and an unwritten memory. -/
theorem resetMeetsInvariant : Obligations.ResetMeetsInvariant :=
  inv_resetWith (by decide) memWF_nil (by simp) ..

/-- Settles O57: field by field, `State.reset` is defined by the table of R39. -/
theorem resetValues : Obligations.ResetValues :=
  ⟨rfl, rfl, rfl, rfl, rfl, rfl, rfl, rfl, rfl, rfl, rfl, rfl, rfl, rfl, rfl, rfl, rfl, rfl, rfl⟩

/-! Who sets `DONE` (R30). -/

/-- The effect of every command but `NOP`, `DIGEST` and `HMAC` ends with `DONE = 0`. -/
theorem effectOf_done {i : Instr} (hn : i ≠ .nop) (hd : i ≠ .digest) (hh : i ≠ .hmac) (s : State) :
    (effectOf i s).done = false := by
  cases i with
  | nop => exact absurd rfl hn
  | digest => exact absurd rfl hd
  | hmac => exact absurd rfl hh
  | padblk => exact padblkEffect_done s
  | init | clear | expand | ldreg | round n | feedfwd | compress => rfl

/-- On an unlocked block, what runs leaves `DONE = 0` unless it is `NOP`, `DIGEST` or `HMAC`. -/
theorem complete_done_unlocked {s t : State} (herr : s.err = false) (h : complete s = .next t)
    (hn : decode s.cmdreg ≠ .ok .nop) (hd : decode s.cmdreg ≠ .ok .digest) (hh : decode s.cmdreg ≠ .ok .hmac) :
    t.done = false := by
  rcases complete_cases h with ⟨-, rfl⟩ | ⟨i, u, hi, he, rfl⟩
  · exact raise_done_unlocked herr .ill
  · rw [hi] at hn hd hh
    rcases exec_cases he with ⟨-, rfl⟩ | ⟨-, hl, -⟩ | ⟨-, -, c, -, rfl⟩ | ⟨-, -, -, rfl⟩
    · rfl
    · rw [herr] at hl; cases hl
    · exact raise_done_unlocked herr c
    · exact effectOf_done (fun e => hn (e ▸ rfl)) (fun e => hd (e ▸ rfl)) (fun e => hh (e ▸ rfl)) s

/-- A locked block gains no `DONE` (R230). -/
theorem complete_done_locked {s t : State} (herr : s.err = true) (hs : s.done = false) (h : complete s = .next t) :
    t.done = false := by
  rcases complete_cases h with ⟨-, rfl⟩ | ⟨i, u, -, he, rfl⟩
  · rw [raise_locked herr]; exact hs
  · rcases exec_cases he with ⟨-, rfl⟩ | ⟨-, -, rfl⟩ | ⟨-, hu, -⟩ | ⟨-, hu, -⟩
    · rfl
    · exact hs
    · rw [herr] at hu; cases hu
    · rw [herr] at hu; cases hu

/-- `NOP` gives no `DONE` (R201). -/
theorem complete_done_nop {s t : State} (hd : decode s.cmdreg = .ok .nop) (hs : s.done = false)
    (h : complete s = .next t) : t.done = false := by
  rcases complete_cases h with ⟨⟨e, he⟩, -⟩ | ⟨i, u, hi, he, rfl⟩
  · rw [hd] at he; cases he
  · rw [hd] at hi; cases hi
    rcases exec_cases he with ⟨hc, -⟩ | ⟨-, -, rfl⟩ | ⟨-, -, c, hf, -⟩ | ⟨-, -, -, rfl⟩
    · cases hc
    · exact hs
    · cases hf
    · exact hs

/-- No move of the HOST sets `DONE`. -/
theorem hostMove_done {s t : State} (hs : s.done = false) (h : s.hostMove = .next t) : t.done = false := by
  rcases hostMove_cases h with rfl | ⟨tr, rest, hp⟩
  · exact hs
  · rcases perform_cases hp with ⟨idx, data, rfl⟩ | ⟨idx, script, rfl⟩ | ⟨addr, byte, -, rfl⟩ | rfl
    · rw [regWrite_eq]; exact hs
    · exact hs
    · exact hs
    · rfl

/-- Settles O40: of all steps only the completion of `DIGEST` or `HMAC` on an unlocked block raises `DONE`. -/
theorem macroCommandsAloneSetDone : Obligations.MacroCommandsAloneSetDone := by
  refine ⟨fun s t h hs ht => ?_, fun s t => complete_done_unlocked⟩
  have hne : t.done ≠ false := by simp [ht]
  rcases step_next_cases h with ⟨hb, hc⟩ | hm | hm
  · cases herr : s.err with
    | true => exact absurd (complete_done_locked herr hs hc) hne
    | false =>
      refine ⟨hb, rfl, ?_⟩
      by_contra hneither
      obtain ⟨hd, hh⟩ := not_or.1 hneither
      by_cases hn : decode s.cmdreg = .ok .nop
      · exact absurd (complete_done_nop hn hs hc) hne
      · exact absurd (complete_done_unlocked herr hc hn hd hh) hne
  · exact absurd (hostMove_done (s := s.spend) hs hm) hne
  · exact absurd (hostMove_done hs hm) hne

/-! What the complete step keeps, whatever the command does (R36, R52). -/

/-- What no complete step writes: the parameter, the descriptors, the memory, and the HOST's side. -/
structure CompleteKeeps (s t : State) : Prop where
  mem : t.mem = s.mem
  cfg : t.cfg = s.cfg
  msgBase : t.msgBase = s.msgBase
  msgLen : t.msgLen = s.msgLen
  keyBase : t.keyBase = s.keyBase
  keyLen : t.keyLen = s.keyLen
  script : t.script = s.script
  answers : t.answers = s.answers
  slack : t.slack = s.slack
  turn : t.turn = s.turn

theorem EffectKeeps.completeKeeps {s t : State} (h : EffectKeeps s t) : CompleteKeeps s t :=
  ⟨h.mem, h.cfg, h.msgBase, h.msgLen, h.keyBase, h.keyLen, h.script, h.answers, h.slack, h.turn⟩

theorem raise_completeKeeps (s : State) (c : FaultCode) : CompleteKeeps s (s.raise c) := by
  constructor <;> simp

theorem exec_completeKeeps {i : Instr} {s t : State} (h : exec i s = .next t) : CompleteKeeps s t := by
  rcases exec_cases h with ⟨-, rfl⟩ | ⟨-, -, rfl⟩ | ⟨-, -, c, -, rfl⟩ | ⟨hc, -, -, rfl⟩
  · constructor <;> rfl
  · constructor <;> rfl
  · exact raise_completeKeeps s c
  · exact (effectOf_keeps hc s).completeKeeps

/-- What the latched word does, command or illegal word, answers a state and writes no memory and no descriptor. -/
theorem execWord_next (cw : Word) (s : State) : ∃ t, execWord cw s = .next t ∧ CompleteKeeps s t := by
  unfold execWord
  split
  · next i hi =>
    obtain ⟨t, ht⟩ := exec_next i s
    exact ⟨t, ht, exec_completeKeeps ht⟩
  · exact ⟨_, rfl, raise_completeKeeps s .ill⟩

/-- Settles O46: the latched word's outcome is a next state, and `BUSY <- 0` is all that is added to it. -/
theorem everyCommandCompletesAndKeepsMemory : Obligations.EveryCommandCompletesAndKeepsMemory := by
  intro s
  obtain ⟨t, ht, hk⟩ := execWord_next s.cmdreg s
  refine ⟨notBusy t, ?_, rfl, hk.mem, fun addr => congrArg (memByte · addr) hk.mem, hk.cfg, hk.msgBase, hk.msgLen,
    hk.keyBase, hk.keyLen, hk.script, hk.answers, hk.slack, hk.turn⟩
  rw [Machine.complete, ht, endCommand]

/-! The register space (R32 to R36). -/

/-- The index of a register the map lists; for the reserved ones, the first index the map leaves out. -/
def indexOf : Reg → BitVec 6
  | .id => 0
  | .cmd => 1
  | .status => 2
  | .msgBaseLo => 4
  | .msgBaseHi => 5
  | .msgLenLo => 6
  | .msgLenHi => 7
  | .keyBaseLo => 8
  | .keyBaseHi => 9
  | .keyLenLo => 10
  | .keyLenHi => 11
  | .blkidxLo => 12
  | .blkidxHi => 13
  | .digest i => BitVec.ofNat 6 (16 + i.val)
  | .reserved => 3

/-- The map lists every register but the reserved ones at one index. -/
theorem indexOf_regAt : ∀ idx : BitVec 6, regAt idx ≠ .reserved → indexOf (regAt idx) = idx := by decide

theorem regAt_eq_id_iff : ∀ idx : BitVec 6, regAt idx = .id ↔ idx = 0 := by decide

theorem regAt_eq_cmd_iff : ∀ idx : BitVec 6, regAt idx = .cmd ↔ idx = 1 := by decide

theorem regAt_eq_status_iff : ∀ idx : BitVec 6, regAt idx = .status ↔ idx = 2 := by decide

/-- Two indices of one register are the same, or both reserved. -/
theorem regAt_injective {idx idx' : BitVec 6} (h : regAt idx' = regAt idx) (hr : regAt idx ≠ .reserved) :
    idx' = idx := by
  rw [← indexOf_regAt idx hr, ← h, indexOf_regAt idx' (h ▸ hr)]

/-! A descriptor's halves after a write of one of them (R36). -/

@[simp] theorem loHalf_withLo (d : BitVec 64) (x : Word) : loHalf (withLo d x) = x :=
  BitVec.extractLsb'_append_eq_right

@[simp] theorem hiHalf_withLo (d : BitVec 64) (x : Word) : hiHalf (withLo d x) = hiHalf d :=
  BitVec.extractLsb'_append_eq_left

@[simp] theorem loHalf_withHi (d : BitVec 64) (x : Word) : loHalf (withHi d x) = loHalf d :=
  BitVec.extractLsb'_append_eq_right

@[simp] theorem hiHalf_withHi (d : BitVec 64) (x : Word) : hiHalf (withHi d x) = x :=
  BitVec.extractLsb'_append_eq_left

/-- The indices of the descriptor halves are 4..11. -/
theorem regAt_descriptor : ∀ idx : BitVec 6, 4 ≤ idx.toNat → idx.toNat ≤ 11 →
    regAt idx ∈ ([.msgBaseLo, .msgBaseHi, .msgLenLo, .msgLenHi, .keyBaseLo, .keyBaseHi, .keyLenLo, .keyLenHi] : List Reg) := by
  decide

/-- A descriptor half reads back what is written to it. -/
theorem regRead_regWrite_same (s : State) {idx : BitVec 6} (data : Word) (h4 : 4 ≤ idx.toNat) (h11 : idx.toNat ≤ 11) :
    (s.regWrite idx data).regRead idx = data := by
  have hmem := regAt_descriptor idx h4 h11
  simp only [List.mem_cons, List.not_mem_nil, or_false] at hmem
  rcases hmem with h | h | h | h | h | h | h | h <;> simp [regRead, regWrite, h]

/-- A write to one register but `CMD` shows in no other register: a write of one half keeps the other half of its
descriptor, and no third register reads that descriptor. -/
theorem regRead_regWrite_other (s : State) {idx idx' : BitVec 6} (data : Word) (hcmd : regAt idx ≠ .cmd)
    (hne : regAt idx' ≠ regAt idx) : (s.regWrite idx data).regRead idx' = s.regRead idx' := by
  cases h : regAt idx
  case cmd => exact absurd h hcmd
  case id | status | blkidxLo | blkidxHi | digest | reserved => simp only [regWrite, h]
  all_goals
    rw [h] at hne
    simp only [regWrite, regRead, h]
    split <;> simp_all [status]

/-- Settles O53: the map is injective but for the reserved registers, which ignore writes. -/
theorem registerReadBack : Obligations.RegisterReadBack := by
  refine fun s idx idx' data => ⟨fun h4 h11 => regRead_regWrite_same s data h4 h11, fun hcmd hne => ?_⟩
  by_cases hr : regAt idx = .reserved
  · simp only [regWrite, hr]
  · exact regRead_regWrite_other s data (mt (regAt_eq_cmd_iff idx).1 hcmd) fun h => hne (regAt_injective h hr)

/-! `STATUS` (R35). -/

/-- Bits 31:1 of `STATUS`, all but `BUSY`. -/
def statusHigh (s : State) : BitVec 31 :=
  (0 : BitVec 17) ++ s.j ++ s.ecode ++ BitVec.ofBool s.fin ++ BitVec.ofBool s.err ++ BitVec.ofBool s.done

theorem status_eq_append (s : State) : s.status = statusHigh s ++ BitVec.ofBool s.busy := rfl

/-- The flags, bits 0..3. -/
theorem status_flags (s : State) :
    s.status.getLsbD 0 = s.busy ∧ s.status.getLsbD 1 = s.done ∧ s.status.getLsbD 2 = s.err ∧
      s.status.getLsbD 3 = s.fin := by
  simp only [status, BitVec.getLsbD_append]
  simp

/-- The fields above the flags: each lies above the fields appended after it. -/
theorem status_fields (s : State) :
    s.status.extractLsb' 4 4 = s.ecode ∧ s.status.extractLsb' 8 7 = s.j ∧ s.status.extractLsb' 15 17 = 0 := by
  unfold status
  refine ⟨?_, ?_, ?_⟩
  · iterate 4 rw [BitVec.extractLsb'_append_eq_of_le (by decide)]
    exact BitVec.extractLsb'_append_eq_right
  · iterate 5 rw [BitVec.extractLsb'_append_eq_of_le (by decide)]
    exact BitVec.extractLsb'_append_eq_right
  · iterate 6 rw [BitVec.extractLsb'_append_eq_of_le (by decide)]
    exact BitVec.extractLsb'_eq_self

/-- Of the reads, those of `ID` and `STATUS` alone are not held (R206). -/
theorem heldWhileBusy_read_iff (idx : BitVec 6) : heldWhileBusy (.read idx) = false ↔ idx = 0 ∨ idx = 2 := by
  simp [heldWhileBusy, regAt_eq_id_iff, regAt_eq_status_iff, or_iff_not_imp_left]

/-- The accept step raises bit 0 of `STATUS` and keeps the others (R207). -/
theorem status_accept {s : State} (cw : Word) (h : s.busy = false) :
    (s.accept cw).status = s.status ||| 1 ∧ s.status &&& 1 = 0 := by
  have hone : (1 : Word) = (0 : BitVec 31) ++ (1 : BitVec 1) := by decide
  have hzero : (0 : Word) = (0 : BitVec 31) ++ (0 : BitVec 1) := by decide
  have hacc : statusHigh (s.accept cw) = statusHigh s := rfl
  rw [status_eq_append, status_eq_append, hacc, accept_busy, h, hone, hzero, BitVec.or_append, BitVec.and_append]
  simp

/-- Settles O50: the word is the concatenation of its fields, and the accept step writes `BUSY` alone of them. -/
theorem statusLayout : Obligations.StatusLayout := by
  refine ⟨fun s => ?_, heldWhileBusy_read_iff, fun s t h => ?_, fun s cw => status_accept cw⟩
  · obtain ⟨hbusy, hdone, herr, hfin⟩ := status_flags s
    obtain ⟨hecode, hj, hzero⟩ := status_fields s
    exact ⟨hbusy, hdone, herr, hfin, hecode, hj, hzero, rfl⟩
  · cases h; rfl

end Sys2Proof.Machine
end

section
/-! The family of the message memory (spec/20_memory.md): its canonical form, the HOST's writes and where they stop the
machine, and that a command depends on the memory through its footprint alone. -/

namespace Sys2Proof.Machine

open State

/-! The canonical form (R51; log entry 2). -/

/-- The cells of a memory in canonical form are what its addresses read as, where that is not the unwritten byte. -/
theorem mem_iff_memByte {m : Memory} (h : memWF m) (c : Host.Cell) :
    c ∈ m ↔ c.2 ≠ unwrittenByte ∧ memByte m c.1 = c.2 := by
  induction m with
  | nil => simp [eq_comm]
  | cons d rest ih =>
    obtain ⟨hrest, hlt, hd⟩ := memWF_tail h
    rw [List.mem_cons, memByte_cons]
    by_cases ha : d.1 = c.1
    · have hc : c ∉ rest := fun hc => by have := hlt c hc; omega
      rw [if_pos ha]
      constructor
      · rintro (rfl | hc')
        · exact ⟨hd, rfl⟩
        · exact absurd hc' hc
      · rintro ⟨-, hb⟩
        exact .inl (Prod.ext ha.symm hb.symm)
    · have hc : c ≠ d := fun he => ha (he ▸ rfl)
      rw [if_neg ha, ih hrest, or_iff_right hc]

/-- Settles O56: both are the list, by rising address, of the cells that are not the unwritten byte. -/
theorem memoryIsCanonical : Obligations.MemoryIsCanonical := by
  intro m m' h h' hread
  refine List.Pairwise.eq_of_mem_iff (r := InvImage (· < ·) Prod.fst) h.1 h'.1 fun c => ?_
  rw [mem_iff_memByte h, mem_iff_memByte h', hread]

/-! A HOST memory write, its three answers (R209). -/

theorem memWrite_ok {s : State} {addr : Nat} (byte : Byte) (ha : addr < 2 ^ s.cfg.aw)
    (h : s.busy = false ∨ s.inPendingFootprint addr = false) :
    s.memWrite addr byte = .next { s with mem := memSet s.mem addr byte } := by
  rcases memWrite_cases s addr byte with ⟨hge, -⟩ | ⟨hb, hf, -⟩ | ⟨-, -, hw⟩
  · omega
  · simp [hb, hf] at h
  · exact hw

theorem memWrite_noSuchAddress {s : State} {addr : Nat} (byte : Byte) (ha : 2 ^ s.cfg.aw ≤ addr) :
    s.memWrite addr byte = .fault .noSuchAddress := if_pos ha

theorem memWrite_stabilityDutyBroken {s : State} {addr : Nat} (byte : Byte) (ha : addr < 2 ^ s.cfg.aw)
    (hb : s.busy = true) (hf : s.inPendingFootprint addr = true) :
    s.memWrite addr byte = .refused .stabilityDutyBroken := by
  rw [memWrite, if_neg (Nat.not_le.2 ha), hb, hf]
  rfl

/-! The step on a script that begins with a memory write (R75, R209). -/

theorem hostMove_cons {s : State} {tr : Transaction} {rest : List Transaction} (h : s.script = tr :: rest) :
    s.hostMove = perform { s with script := rest } tr := by
  rw [hostMove, h]

theorem hostWaits_cons {s : State} {tr : Transaction} {rest : List Transaction} (h : s.script = tr :: rest) :
    s.hostWaits = heldWhileBusy tr := by
  rw [hostWaits, h]

theorem step_write_idle {s : State} {addr : Nat} {byte : Byte} {rest : List Transaction}
    (h : s.script = .mem addr byte :: rest ∨ s.script = .store addr byte :: rest) (hb : s.busy = false) :
    step s = ({ s with script := rest } : State).memWrite addr byte := by
  rw [step_idle hb]
  rcases h with h | h
  · exact hostMove_cons h
  · exact hostMove_cons h

theorem step_store_pending {s : State} {addr : Nat} {byte : Byte} {rest : List Transaction}
    (h : s.script = .store addr byte :: rest) (hb : s.busy = true) (hs : 0 < s.slack) :
    step s = ({ s with script := rest, slack := s.slack - 1 } : State).memWrite addr byte := by
  rw [step_host hb (hostWaits_cons h) hs]
  exact hostMove_cons (s := s.spend) h

/-- Settles O55: the write is `memSet`, and the two kinds of transaction differ in whether the HOST waits with them. -/
theorem memoryWriteStoresOneByte : Obligations.MemoryWriteStoresOneByte := by
  refine ⟨fun s addr byte hwf ha h => ?_, fun s addr byte rest => step_write_idle, fun s addr byte rest h hb => ?_,
    fun s addr byte rest h hb => ?_⟩
  · exact ⟨memSet s.mem addr byte, memWrite_ok byte ha h, memByte_memSet_same addr byte hwf.1,
      fun a hne => memByte_memSet_other s.mem byte hne, memWF_memSet addr byte hwf⟩
  · have hw : s.hostWaits = true := hostWaits_cons h
    exact ⟨hw, step_complete hb (.inl hw)⟩
  · exact ⟨hostWaits_cons h, fun h0 => step_complete hb (.inr h0), step_store_pending h hb⟩

/-! Where the machine stops (R209, U3). -/

/-- The complete step of every state answers a next state, with the memory it had (R200). -/
theorem complete_next (s : State) : ∃ t, complete s = .next t ∧ t.busy = false ∧ CompleteKeeps s t := by
  obtain ⟨t, ht, hbusy, hmem, -, hcfg, hmb, hml, hkb, hkl, hscript, hanswers, hslack, hturn⟩ :=
    everyCommandCompletesAndKeepsMemory s
  exact ⟨t, ht, hbusy, hmem, hcfg, hmb, hml, hkb, hkl, hscript, hanswers, hslack, hturn⟩

/-- A move of the HOST that answers no next state is a memory write. -/
theorem hostMove_stop {s : State} (h : ∀ t, s.hostMove ≠ .next t) :
    ∃ addr byte rest, (s.script = .mem addr byte :: rest ∨ s.script = .store addr byte :: rest) ∧
      s.hostMove = ({ s with script := rest } : State).memWrite addr byte := by
  cases hs : s.script with
  | nil => exact absurd (by rw [hostMove, hs]) (h s)
  | cons tr rest =>
    have hm := hostMove_cons hs
    cases tr with
    | mem addr byte => exact ⟨addr, byte, rest, .inl rfl, hm⟩
    | store addr byte => exact ⟨addr, byte, rest, .inr rfl, hm⟩
    | write idx data => exact absurd hm (h _)
    | read idx => exact absurd hm (h _)
    | wait => exact absurd hm (h _)
    | reset => exact absurd hm (h _)

/-- A step that answers no next state is the HOST's, and a memory write it does not wait with. -/
theorem step_stop {s : State} (h : ∀ t, step s ≠ .next t) :
    ∃ addr byte rest slack,
      ((s.script = .mem addr byte :: rest ∧ s.busy = false) ∨ s.script = .store addr byte :: rest) ∧
      step s = ({ s with script := rest, slack := slack } : State).memWrite addr byte := by
  rcases step_cases s with ⟨-, -, hs⟩ | ⟨-, hwait, -, hs⟩ | ⟨hb, hs⟩ <;> rw [hs] at h ⊢
  · obtain ⟨t, ht, -⟩ := complete_next s
    exact absurd ht (h t)
  · obtain ⟨addr, byte, rest, hscript | hscript, hw⟩ := hostMove_stop h
    · cases hwait.symm.trans (hostWaits_cons hscript)
    · exact ⟨addr, byte, rest, s.slack - 1, .inr hscript, hw⟩
  · obtain ⟨addr, byte, rest, hscript, hw⟩ := hostMove_stop h
    exact ⟨addr, byte, rest, s.slack, hscript.imp_left fun he => ⟨he, hb⟩, hw⟩

/-- A step that stops with a fault is a memory write past the top of the memory (R50). -/
theorem step_fault {s : State} {f : Fault} (h : step s = .fault f) :
    ∃ addr byte rest, ((s.script = .mem addr byte :: rest ∧ s.busy = false) ∨ s.script = .store addr byte :: rest) ∧
      2 ^ s.cfg.aw ≤ addr := by
  obtain ⟨addr, byte, rest, slack, hscript, hw⟩ := step_stop (s := s) fun t ht => by rw [h] at ht; cases ht
  rw [h] at hw
  rcases memWrite_cases { s with script := rest, slack := slack } addr byte with ⟨hge, -⟩ | ⟨-, -, hr⟩ | ⟨-, -, hn⟩
  · exact ⟨addr, byte, rest, hscript, hge⟩
  · rw [hr] at hw; cases hw
  · rw [hn] at hw; cases hw

/-- A step that is refused is a memory write into the footprint of the pending command (R209). -/
theorem step_refused {s : State} {r : Refusal} (h : step s = .refused r) :
    r = .stabilityDutyBroken ∧ s.busy = true ∧
      ∃ addr byte rest, s.script = .store addr byte :: rest ∧ s.inPendingFootprint addr = true := by
  obtain ⟨addr, byte, rest, slack, hscript, hw⟩ := step_stop (s := s) fun t ht => by rw [h] at ht; cases ht
  rw [h] at hw
  rcases memWrite_cases { s with script := rest, slack := slack } addr byte with ⟨-, hf⟩ | ⟨hb, hin, hr⟩ | ⟨-, -, hn⟩
  · rw [hf] at hw; cases hw
  · rw [hr] at hw
    cases hw
    rcases hscript with ⟨-, hidle⟩ | hscript
    · cases hb.symm.trans hidle
    · exact ⟨rfl, hb, addr, byte, rest, hscript, hin⟩
  · rw [hn] at hw; cases hw

/-- Settles O45: a step that stops is a memory write, and a memory write stops in its first two cases. -/
theorem onlyHostMemoryWritesStop : Obligations.OnlyHostMemoryWritesStop := by
  refine ⟨fun s f => step_fault, fun s r => step_refused, fun s addr byte rest ha => ⟨fun hm hb => ?_, fun hst h => ?_⟩,
    fun s addr byte rest hst hb hs ha hin => ?_⟩
  · rw [step_write_idle (.inl hm) hb]
    exact memWrite_noSuchAddress byte ha
  · cases hb : s.busy with
    | false =>
      rw [step_write_idle (.inr hst) hb]
      exact memWrite_noSuchAddress byte ha
    | true =>
      rw [step_store_pending hst hb (h.resolve_left (by simp [hb]))]
      exact memWrite_noSuchAddress byte ha
  · rw [step_store_pending hst hb hs]
    exact memWrite_stabilityDutyBroken byte ha hb hin

/-! Streams that agree: what a hash pass reads of a state (R52, R115). -/

/-- Two streams of one length with the same byte at each position below it. -/
structure ByteStream.Agree (S' S : ByteStream) : Prop where
  len : S'.len = S.len
  byte : ∀ p, p < S.len → S'.byte p = S.byte p

theorem hashPass_v_of_agree {S' S : ByteStream} (h : S'.Agree S) (t s : State) :
    (t.hashPass S').v = (s.hashPass S).v :=
  hashPass_v_congr t s h.len fun p hp => h.byte p (h.len ▸ hp)

/-- The normalised key depends on the key's stream alone (R181). -/
theorem loadKey_k_of_agree {t s : State} (h : t.keyStream.Agree s.keyStream) : (loadKey t).k = (loadKey s).k := by
  have hlen : t.keyLen.toNat = s.keyLen.toNat := h.len
  unfold loadKey
  rw [hlen]
  split
  · simp only [hashPass_v_of_agree h t s]
  · refine Vector.ext fun p hp => ?_
    simp only [Vector.getElem_ofFn]
    split
    · exact h.byte p ‹_›
    · rfl

theorem innerStream_agree {t s : State} (hk : t.k = s.k) (h : t.msgStream.Agree s.msgStream) :
    t.innerStream.Agree s.innerStream where
  len := congrArg (64 + ·) h.len
  byte p hp := by
    have hlen : s.innerStream.len = 64 + s.msgStream.len := rfl
    simp only [innerStream, hk]
    split
    · rfl
    · exact h.byte (p - 64) (by omega)

/-- The serialised inner digest depends on the normalised key and the message's stream alone (R183, R184). -/
theorem innerPass_i_of_agree {t s : State} (hk : t.k = s.k) (h : t.msgStream.Agree s.msgStream) :
    (innerPass t).i = (innerPass s).i := by
  simp only [innerPass, hashPass_v_of_agree (innerStream_agree hk h) t s]

/-- What the outer pass leaves in `V` depends on the normalised key and the inner digest alone (R185). -/
theorem outerPass_v_congr {t s : State} (hk : t.k = s.k) (hi : t.i = s.i) : (outerPass t).v = (outerPass s).v := by
  have hS : t.outerStream = s.outerStream := by rw [outerStream, outerStream, hk, hi]
  rw [outerPass, outerPass, hS]
  exact hashPass_v_congr t s rfl fun _ _ => rfl

/-- The key load keeps the message's stream. -/
theorem loadKey_msgStream (s : State) : (loadKey s).msgStream = s.msgStream := by
  have h := loadKey_same s
  rw [msgStream, msgStream, h.mem, h.msgBase, h.msgLen]

/-- The digest `HMAC` leaves in `V` depends on the key's and the message's streams alone (R180 to R187). -/
theorem hmac_v_of_agree {t s : State} (hk : t.keyStream.Agree s.keyStream) (hm : t.msgStream.Agree s.msgStream) :
    (outerPass (innerPass (loadKey t))).v = (outerPass (innerPass (loadKey s))).v := by
  have hkey : (loadKey t).k = (loadKey s).k := loadKey_k_of_agree hk
  refine outerPass_v_congr ?_ (innerPass_i_of_agree hkey ?_)
  · rw [(innerPass_same (loadKey t)).k, (innerPass_same (loadKey s)).k]
    exact hkey
  · rw [loadKey_msgStream, loadKey_msgStream]
    exact hm

/-! A command on a memory that differs outside its footprint (R52). -/

theorem reads_digest_iff (s : State) (addr : Nat) :
    s.reads addr .digest = true ↔ s.inMsg 0 s.msgLen.toNat addr := by
  rw [reads, decide_eq_true_iff]

theorem reads_hmac_iff (s : State) (addr : Nat) :
    s.reads addr .hmac = true ↔ s.inMsg 0 s.msgLen.toNat addr ∨ s.inKey addr := by
  rw [reads, Bool.or_eq_true, decide_eq_true_iff, decide_eq_true_iff]

/-- Where two memories read alike on the message, they have the same message stream. -/
theorem msgStream_agree {s : State} {m : Memory}
    (h : ∀ addr, s.inMsg 0 s.msgLen.toNat addr → memByte m addr = memByte s.mem addr) :
    ({ s with mem := m } : State).msgStream.Agree s.msgStream where
  len := rfl
  byte p hp := h _ ⟨Nat.le_add_right _ p, Nat.add_lt_add_left hp _⟩

/-- Where two memories read alike on the key, they have the same key stream. -/
theorem keyStream_agree {s : State} {m : Memory}
    (h : ∀ addr, s.inKey addr → memByte m addr = memByte s.mem addr) :
    ({ s with mem := m } : State).keyStream.Agree s.keyStream where
  len := rfl
  byte p hp := h _ ⟨Nat.le_add_right _ p, Nat.add_lt_add_left hp _⟩

/-- No fault condition reads the memory (R211). -/
theorem faultOf_mem (s : State) (m : Memory) (i : Instr) : ({ s with mem := m } : State).faultOf i = s.faultOf i := by
  cases i <;> rfl

/-- The block `PADBLK` fetches depends on the message bytes inside the block alone (R57, R114). -/
theorem padblkEffect_mem_congr {s : State} {m : Memory}
    (h : ∀ addr, s.reads addr .padblk = true → memByte m addr = memByte s.mem addr) :
    padblkEffect { s with mem := m } = { padblkEffect s with mem := m } := by
  have hb : streamBlock ({ s with mem := m } : State).msgStream s.blkidx.toNat
      = streamBlock s.msgStream s.blkidx.toNat := by
    refine streamBlock_congr rfl fun p hlo hhi hp => h _ ?_
    have hp' : p < s.msgLen.toNat := hp
    simp only [reads, decide_eq_true_eq, inMsg]
    omega
  apply State.ext <;> simp [hb]

/-- The effect of `DIGEST` depends on the message bytes alone. -/
theorem digestEffect_mem_congr {s : State} {m : Memory}
    (h : ∀ addr, s.inMsg 0 s.msgLen.toNat addr → memByte m addr = memByte s.mem addr) :
    digestEffect { s with mem := m } = { digestEffect s with mem := m } := by
  rw [digestEffect_eq, digestEffect_eq, hashPass_v_of_agree (msgStream_agree h) _ s]
  rfl

/-- The effect of `HMAC` depends on the key and message bytes alone. -/
theorem hmacEffect_mem_congr {s : State} {m : Memory}
    (hk : ∀ addr, s.inKey addr → memByte m addr = memByte s.mem addr)
    (hm : ∀ addr, s.inMsg 0 s.msgLen.toNat addr → memByte m addr = memByte s.mem addr) :
    hmacEffect { s with mem := m } = { hmacEffect s with mem := m } := by
  rw [hmacEffect_eq, hmacEffect_eq, hmac_v_of_agree (keyStream_agree hk) (msgStream_agree hm)]
  rfl

/-- The effect of every command depends on the memory through the bytes it reads alone (R52). -/
theorem effectOf_mem_congr {i : Instr} {s : State} {m : Memory}
    (h : ∀ addr, s.reads addr i = true → memByte m addr = memByte s.mem addr) :
    effectOf i { s with mem := m } = { effectOf i s with mem := m } := by
  cases i with
  | padblk => exact padblkEffect_mem_congr h
  | digest => exact digestEffect_mem_congr fun addr ha => h addr ((reads_digest_iff s addr).2 ha)
  | hmac =>
    exact hmacEffect_mem_congr (fun addr ha => h addr ((reads_hmac_iff s addr).2 (.inr ha)))
      fun addr ha => h addr ((reads_hmac_iff s addr).2 (.inl ha))
  | nop | init | clear | expand | ldreg | round n | feedfwd | compress => rfl

/-- Fault entry does not read the memory (R229). -/
theorem raise_mem_update (s : State) (m : Memory) (c : FaultCode) :
    ({ s with mem := m } : State).raise c = { s.raise c with mem := m } := by
  unfold raise
  split <;> rfl

/-- The footprint of a command that takes effect is what it reads (log entry 7). -/
theorem inFootprint_of_effect {s : State} {i : Instr} (herr : s.err = false) (hf : s.faultOf i = none) (addr : Nat) :
    s.inFootprint i addr = s.reads addr i := by
  simp [inFootprint, herr, hf]

/-- Settles O47: a command clears, is discarded, faults, or takes effect, and only in the last case reads memory. -/
theorem footprintDecidesEffect : Obligations.FootprintDecidesEffect := by
  intro i s t m h he
  rcases exec_cases he with ⟨rfl, rfl⟩ | ⟨hc, herr, rfl⟩ | ⟨hc, herr, c, hf, rfl⟩ | ⟨hc, herr, hf, rfl⟩
  · rfl
  · exact exec_locked hc herr
  · rw [exec_fault (s := { s with mem := m }) hc herr ((faultOf_mem s m i).trans hf), raise_unlocked herr]
  · rw [exec_ok (s := { s with mem := m }) hc herr ((faultOf_mem s m i).trans hf),
      effectOf_mem_congr fun addr ha => h addr ?_]
    rw [inFootprint_of_effect herr hf, ha]

/-! The complete step on a memory that differs outside the pending footprint (R60, R208). -/

theorem complete_of_decode {s u : State} {i : Instr} (hd : decode s.cmdreg = .ok i) (he : exec i s = .next u) :
    complete s = .next (notBusy u) := by
  rw [complete, execWord, hd]
  exact congrArg endCommand he

theorem complete_of_illegal {s : State} {e : Illegal} (hd : decode s.cmdreg = .error e) :
    complete s = .next (notBusy (s.raise .ill)) := by
  rw [complete, execWord, hd]
  rfl

theorem inPendingFootprint_of_decode {s : State} {i : Instr} (hd : decode s.cmdreg = .ok i) (addr : Nat) :
    s.inPendingFootprint addr = s.inFootprint i addr := by
  rw [inPendingFootprint, hd]

/-- The complete step depends on the memory through the pending footprint alone. -/
theorem complete_mem_congr {s t : State} {m : Memory}
    (h : ∀ addr, s.inPendingFootprint addr = true → memByte m addr = memByte s.mem addr)
    (hc : complete s = .next t) : complete { s with mem := m } = .next { t with mem := m } := by
  rcases complete_cases hc with ⟨⟨e, hd⟩, rfl⟩ | ⟨i, u, hd, he, rfl⟩
  · rw [complete_of_illegal (s := { s with mem := m }) hd, raise_mem_update]
    rfl
  · refine complete_of_decode (s := { s with mem := m }) hd
      (footprintDecidesEffect i s u m (fun addr ha => h addr ?_) he)
    rw [inPendingFootprint_of_decode hd, ha]

/-- Settles O48: in either order the result is the completion's, with the byte stored. -/
theorem writeOutsideFootprintCommutes : Obligations.WriteOutsideFootprintCommutes := by
  intro s addr byte _ ha hout
  obtain ⟨t, ht, hidle, hk⟩ := complete_next s
  have hfirst : andThen (s.memWrite addr byte) complete = .next { t with mem := memSet s.mem addr byte } := by
    rw [memWrite_ok byte ha (.inr hout), andThen_next]
    refine complete_mem_congr (fun a hin => memByte_memSet_other s.mem byte fun he => ?_) ht
    rw [he, hout] at hin
    cases hin
  have hlast : andThen (complete s) (fun t => t.memWrite addr byte) =
      .next { t with mem := memSet s.mem addr byte } := by
    rw [ht, andThen_next, memWrite_ok byte (hk.cfg ▸ ha) (.inl hidle), hk.mem]
  exact ⟨hfirst.trans hlast.symm, _, hfirst⟩

end Sys2Proof.Machine
end

section
/-! The family of the command encoding (spec/30_encoding.md): the decoder and the encoder are inverse to each other, the
opcode map and what it leaves illegal, and the HOST's register accesses as steps. -/

namespace Sys2Proof.Machine

open State

/-! The two formats field by field (R70). -/

theorem eq_formatZ_iff (cw : Word) (opc : BitVec 8) : cw = formatZ opc ↔ opcField cw = opc ∧ zeroFieldZ cw = 0 := by
  have hcw := cw.isLt
  simp only [← BitVec.toNat_inj, formatZ_toNat, opcField_toNat, zeroFieldZ_toNat, BitVec.ofNat_eq_ofNat,
    BitVec.toNat_ofNat]
  omega

theorem eq_formatN_iff (cw : Word) (opc : BitVec 8) (n : BitVec 7) :
    cw = formatN opc n ↔ opcField cw = opc ∧ zeroFieldN cw = 0 ∧ countField cw = n := by
  have hn := n.isLt
  simp only [← BitVec.toNat_inj, formatN_toNat, opcField_toNat, zeroFieldN_toNat, countField_toNat,
    BitVec.ofNat_eq_ofNat, BitVec.toNat_ofNat]
  omega

/-- The mask of the format N row keeps the bits above the count. -/
theorem and_mask_formatN (cw : Word) : cw &&& (0xFFFFFF80 : Word) = cw >>> 7 <<< 7 := by
  rw [BitVec.shiftLeft_ushiftRight]
  rfl

/-! The decoder and the encoder. -/

/-- The format Z rows of the opcode map are the commands but `ROUND`, each at its own opcode (R72). -/
theorem decodeOpcodeZ_eq_some_iff (opc : BitVec 8) (i : Instr) :
    decodeOpcodeZ opc = some i ↔ (∀ n, i ≠ .round n) ∧ opcodeOf i = opc := by
  constructor
  · intro h
    have hopc := (decodeOpcodeZ_eq_some h).1
    refine ⟨?_, hopc⟩
    rintro n rfl
    subst hopc
    cases h
  · rintro ⟨hz, rfl⟩
    exact decodeOpcodeZ_opcodeOf hz

/-- A command but `ROUND` is well-formed, its opcode is not that of format N, and its word has format Z. -/
theorem formatZ_command {i : Instr} (hz : ∀ n, i ≠ .round n) :
    i.WellFormed ∧ opcodeOf i ≠ 0x13 ∧ encode i = formatZ (opcodeOf i) := by
  have hd := decodeOpcodeZ_opcodeOf hz
  obtain ⟨-, hwf, he⟩ := decodeOpcodeZ_eq_some hd
  refine ⟨hwf, fun h => ?_, he⟩
  rw [h] at hd
  cases hd

/-- A word decodes to a command but `ROUND` iff it is that command's one word. -/
theorem decode_eq_ok_iff_of_ne_round {i : Instr} (hz : ∀ n, i ≠ .round n) (cw : Word) :
    decode cw = .ok i ↔ cw = encode i := by
  obtain ⟨-, hopc, he⟩ := formatZ_command hz
  rw [he, eq_formatZ_iff, decode_eq_ok_iff, decodeOpcodeZ_eq_some_iff]
  constructor
  · rintro (⟨-, ⟨-, h⟩, hzero⟩ | ⟨-, -, -, -, h⟩)
    · exact ⟨h.symm, hzero⟩
    · exact absurd h (hz _)
  · rintro ⟨h, hzero⟩
    exact .inl ⟨h ▸ hopc, ⟨hz, h.symm⟩, hzero⟩

/-- A word decodes to `ROUND n` iff its fields are those of format N with the count `n`, and `n` is 1..64 (R71). -/
theorem decode_eq_ok_round_iff (cw : Word) (n : BitVec 7) :
    decode cw = .ok (.round n) ↔
      opcField cw = 0x13 ∧ zeroFieldN cw = 0 ∧ countField cw = n ∧ (Instr.round n).WellFormed := by
  have hpos : countField cw ≠ 0 ↔ 1 ≤ (countField cw).toNat := by
    rw [Nat.one_le_iff_ne_zero, Ne, ← BitVec.toNat_inj]
    rfl
  rw [decode_eq_ok_iff, decodeOpcodeZ_eq_some_iff, hpos]
  constructor
  · rintro (⟨-, ⟨hz, -⟩, -⟩ | ⟨hopc, hzero, hge, hle, h⟩)
    · exact absurd rfl (hz n)
    · cases h
      exact ⟨hopc, hzero, rfl, hge, hle⟩
  · rintro ⟨hopc, hzero, rfl, hge, hle⟩
    exact .inr ⟨hopc, hzero, hge, hle, rfl⟩

/-- A word decodes to a command iff the command is well-formed and the word is its encoding. -/
theorem decode_eq_ok_iff_encode (cw : Word) (i : Instr) : decode cw = .ok i ↔ i.WellFormed ∧ encode i = cw := by
  by_cases hz : ∀ n, i ≠ .round n
  · rw [decode_eq_ok_iff_of_ne_round hz, eq_comm, and_iff_right (formatZ_command hz).1]
  · obtain ⟨n, rfl⟩ : ∃ n, i = .round n := by simpa using hz
    have henc : encode (.round n) = cw ↔ opcField cw = 0x13 ∧ zeroFieldN cw = 0 ∧ countField cw = n :=
      eq_comm.trans (eq_formatN_iff cw 0x13 n)
    rw [decode_eq_ok_round_iff, henc]
    tauto

/-- Settles O1: a word decodes to a command iff it is the word of that command and the command is well-formed. -/
theorem decodeOfEncodeIsTheCommand : Obligations.DecodeOfEncodeIsTheCommand :=
  fun i hwf => (decode_eq_ok_iff_encode (encode i) i).2 ⟨hwf, rfl⟩

/-- Settles O2: the other direction of the same equivalence. -/
theorem encodeOfDecodeIsTheWord : Obligations.EncodeOfDecodeIsTheWord :=
  fun cw i => (decode_eq_ok_iff_encode cw i).1

/-! The opcode map by mask and match (R72). -/

/-- A format Z row: the mask is the whole word, and the match is the command's word. -/
theorem decode_eq_ok_iff_mask_match {i : Instr} (hz : ∀ n, i ≠ .round n) (cw : Word) :
    decode cw = .ok i ↔ cw &&& 0xFFFFFFFF = encode i := by
  rw [decode_eq_ok_iff_of_ne_round hz, show (0xFFFFFFFF : Word) = BitVec.allOnes 32 from rfl, BitVec.and_allOnes]

/-- The format N row's match says that the opcode is `0x13` and bits 23:7 are zero. -/
theorem mask_match_formatN_iff (cw : Word) :
    cw &&& 0xFFFFFF80 = 0x13000000 ↔ opcField cw = 0x13 ∧ zeroFieldN cw = 0 := by
  have hcw := cw.isLt
  rw [and_mask_formatN]
  simp only [← BitVec.toNat_inj, opcField_toNat, zeroFieldN_toNat, BitVec.toNat_shiftLeft, BitVec.toNat_ushiftRight,
    Nat.shiftRight_eq_div_pow, Nat.shiftLeft_eq, BitVec.ofNat_eq_ofNat, BitVec.toNat_ofNat]
  omega

/-- Settles O3: the format Z rows select one word each, and the format N row selects by its fields. -/
theorem decoderFollowsOpcodeMap : Obligations.DecoderFollowsOpcodeMap := by
  intro cw
  have hround (n : BitVec 7) : decode cw = .ok (.round n) ↔
      cw &&& 0xFFFFFF80 = 0x13000000 ∧ n = cw.extractLsb' 0 7 ∧ 1 ≤ n.toNat ∧ n.toNat ≤ 64 := by
    rw [decode_eq_ok_round_iff, mask_match_formatN_iff, eq_comm (a := n), and_assoc]
    rfl
  refine ⟨?_, ?_, ?_, ?_, ?_, ?_, hround, ?_, ?_, ?_, ?_⟩ <;>
    exact decode_eq_ok_iff_mask_match (by simp) cw

/-! The legal words and their number (R73). -/

/-- The commands of format Z. -/
def commandsZ : List Instr :=
  [.nop, .init, .clear, .padblk, .expand, .ldreg, .feedfwd, .compress, .digest, .hmac]

/-- The commands of the block: those of format Z, and `ROUND` with each count 1..64. -/
def commands : List Instr := commandsZ ++ (List.range 64).map fun k => .round (BitVec.ofNat 7 (k + 1))

theorem mem_commandsZ_iff (i : Instr) : i ∈ commandsZ ↔ ∀ n, i ≠ .round n := by
  cases i <;> simp [commandsZ]

theorem mem_commands_iff (i : Instr) : i ∈ commands ↔ i.WellFormed := by
  by_cases hz : ∀ n, i ≠ .round n
  · exact iff_of_true (List.mem_append_left _ ((mem_commandsZ_iff i).2 hz)) (formatZ_command hz).1
  · obtain ⟨n, rfl⟩ : ∃ n, i = .round n := by simpa using hz
    have hn := n.isLt
    rw [commands, List.mem_append, mem_commandsZ_iff, or_iff_right hz]
    simp only [List.mem_map, List.mem_range, Instr.round.injEq, ← BitVec.toNat_inj, BitVec.toNat_ofNat]
    constructor
    · rintro ⟨k, hk, he⟩
      constructor <;> omega
    · rintro ⟨hge, hle⟩
      exact ⟨n.toNat - 1, by omega, by omega⟩

theorem commands_nodup : commands.Nodup := by decide

/-- A well-formed command has a word of its own. -/
theorem encode_injOn : Set.InjOn encode { i | i.WellFormed } := by
  intro i hi i' hi' h
  have hd := decodeOfEncodeIsTheCommand i hi
  rw [h, decodeOfEncodeIsTheCommand i' hi'] at hd
  exact (Except.ok.inj hd).symm

/-- The legal words are the words of the well-formed commands. -/
theorem legalWords_eq_image : { cw : Word | ∃ i, decode cw = .ok i } = encode '' { i | i.WellFormed } := by
  ext cw
  exact exists_congr fun i => decode_eq_ok_iff_encode cw i

theorem ncard_wellFormed : Set.ncard { i : Instr | i.WellFormed } = 74 := by
  have h : { i : Instr | i.WellFormed } = commands.toFinset := by
    ext i
    simp [mem_commands_iff]
  rw [h, Set.ncard_coe_finset, List.toFinset_card_of_nodup commands_nodup]
  rfl

/-- Settles O4: the legal words are in bijection with the well-formed commands, ten and the counts 1..64 of `ROUND`. -/
theorem exactlySeventyFourLegalWords : Obligations.ExactlySeventyFourLegalWords := by
  refine ⟨fun cw => ?_, ?_⟩
  · cases hd : decode cw with
    | ok i =>
      obtain ⟨hwf, he⟩ := encodeOfDecodeIsTheWord cw i hd
      exact .inl ⟨i, hwf, he, rfl⟩
    | error e =>
      refine .inr ⟨fun i hwf he => ?_, e, rfl⟩
      rw [(decode_eq_ok_iff_encode cw i).2 ⟨hwf, he⟩] at hd
      cases hd
  · rw [legalWords_eq_image, encode_injOn.ncard_image, ncard_wellFormed]

/-! The illegal words (R74). -/

/-- The opcodes of the format Z rows (R72). -/
def opcodesZ : List (BitVec 8) := commandsZ.map opcodeOf

theorem mem_opcodesZ_iff (opc : BitVec 8) : opc ∈ opcodesZ ↔ ∃ i, decodeOpcodeZ opc = some i := by
  simp only [opcodesZ, List.mem_map, mem_commandsZ_iff, decodeOpcodeZ_eq_some_iff]

theorem decodeRound_eq_error_iff (cw : Word) :
    (∃ e, decodeRound cw = .error e) ↔
      zeroFieldN cw ≠ 0 ∨ countField cw = 0 ∨ 65 ≤ (countField cw).toNat := by
  unfold decodeRound
  split_ifs with hzero hcount habove
  · exact iff_of_true ⟨_, rfl⟩ (.inl hzero)
  · exact iff_of_true ⟨_, rfl⟩ (.inr (.inl hcount))
  · exact iff_of_true ⟨_, rfl⟩ (.inr (.inr habove))
  · exact iff_of_false nofun (by tauto)

/-- The decoder's rejections: no row has the opcode, or the row's format does not allow the other bits. -/
theorem decode_eq_error_iff (cw : Word) :
    (∃ e, decode cw = .error e) ↔
      opcField cw ∉ 0x13 :: opcodesZ ∨ (opcField cw ∈ opcodesZ ∧ zeroFieldZ cw ≠ 0) ∨
      (opcField cw = 0x13 ∧ (zeroFieldN cw ≠ 0 ∨ countField cw = 0 ∨ 65 ≤ (countField cw).toNat)) := by
  have hmem := mem_opcodesZ_iff (opcField cw)
  rw [List.mem_cons]
  by_cases hopc : opcField cw = 0x13
  · have hz : opcField cw ∉ opcodesZ := by rw [hopc]; decide
    have hd : decode cw = decodeRound cw := if_pos hopc
    rw [hd, decodeRound_eq_error_iff]
    tauto
  · rw [decode, if_neg hopc]
    cases hd : decodeOpcodeZ (opcField cw) with
    | none =>
      have hz : opcField cw ∉ opcodesZ := by rw [hmem, hd]; nofun
      exact iff_of_true ⟨_, rfl⟩ (.inl (not_or.2 ⟨hopc, hz⟩))
    | some i =>
      have hz : opcField cw ∈ opcodesZ := hmem.2 ⟨i, hd⟩
      by_cases hzero : zeroFieldZ cw = 0
      · simp only [if_pos hzero]
        exact iff_of_false nofun (by tauto)
      · exact iff_of_true ⟨_, if_neg hzero⟩ (.inr (.inl ⟨hz, hzero⟩))

/-- The opcodes of R74 (a), in rising order. -/
theorem opcodes_perm :
    ([0x00, 0x01, 0x02, 0x10, 0x11, 0x12, 0x13, 0x14, 0x15, 0x20, 0x21] : List (BitVec 8)).Perm (0x13 :: opcodesZ) := by
  decide

/-- Completing an illegal word enters the fault `E_ILL` on an unlocked block (R221, R228). -/
theorem complete_illegal_unlocked {s : State} {e : Illegal} (hd : decode s.cmdreg = .error e) (herr : s.err = false) :
    complete s = .next { s with err := true, ecode := 1, done := false, busy := false } := by
  rw [complete_of_illegal hd, raise_unlocked herr]
  rfl

/-- A locked block discards an illegal word like any other (R230). -/
theorem complete_illegal_locked {s : State} {e : Illegal} (hd : decode s.cmdreg = .error e) (herr : s.err = true) :
    complete s = .next { s with busy := false } := by
  rw [complete_of_illegal hd, raise_locked herr]
  rfl

/-- Settles O5: the rejections are the complement of the opcode map, and every one of them completes as `E_ILL`. -/
theorem illegalWordsRaiseIll : Obligations.IllegalWordsRaiseIll := by
  refine ⟨fun cw => ?_, fun s e hd => ⟨complete_illegal_unlocked hd, complete_illegal_locked hd⟩⟩
  rw [opcodes_perm.mem_iff]
  exact decode_eq_error_iff cw

/-- Settles O6: each word is decoded by evaluating its fields. -/
theorem sampleWordsDecode : Obligations.SampleWordsDecode := by
  unfold Obligations.SampleWordsDecode
  decide

/-! Register accesses as steps (R75, R204 to R206). -/

/-- The step of an idle block performs the HOST's next transaction. -/
theorem step_perform_idle {s : State} {x : Transaction} {rest : List Transaction} (hb : s.busy = false)
    (h : s.script = x :: rest) : step s = perform { s with script := rest } x := by
  rw [step_idle hb, hostMove_cons h]

/-- While a command is pending, a transaction that is not held is performed as long as the HOST has steps left. -/
theorem step_perform_pending {s : State} {x : Transaction} {rest : List Transaction} (hb : s.busy = true)
    (h : s.script = x :: rest) (hx : heldWhileBusy x = false) (hs : 0 < s.slack) :
    step s = perform { s with script := rest, slack := s.slack - 1 } x := by
  rw [step_host hb ((hostWaits_cons h).trans hx) hs]
  exact hostMove_cons (s := s.spend) h

/-- Every register write and every read but of `ID` and `STATUS` is held (R206). -/
theorem heldWhileBusy_access {x : Transaction}
    (h : (∃ idx data, x = .write idx data) ∨ (∃ idx, x = .read idx ∧ idx ≠ 0 ∧ idx ≠ 2)) :
    heldWhileBusy x = true := by
  rcases h with ⟨idx, data, rfl⟩ | ⟨idx, rfl, hid, hstatus⟩
  · rfl
  · rw [← Bool.not_eq_false, heldWhileBusy_read_iff]
    exact not_or.2 ⟨hid, hstatus⟩

/-- A held transaction lets the pending command complete first, and is then the HOST's next one on an idle block. -/
theorem step_held {s : State} {x : Transaction} {rest : List Transaction} (hb : s.busy = true)
    (h : s.script = x :: rest) (hx : heldWhileBusy x = true) :
    ∃ t, step s = .next t ∧ complete s = .next t ∧ t.busy = false ∧ CompleteKeeps s t ∧
      step t = perform { t with script := rest } x := by
  obtain ⟨t, ht, hidle, hk⟩ := complete_next s
  have hstep : step s = complete s := step_complete hb (.inl ((hostWaits_cons h).trans hx))
  exact ⟨t, hstep.trans ht, ht, hidle, hk, step_perform_idle hidle (hk.script.trans h)⟩

/-- Settles O43: a held access waits for the completion, which keeps script, answers and descriptors; every other one is
performed by the very step. -/
theorem registerAccessIsHeld : Obligations.RegisterAccessIsHeld := by
  refine ⟨fun s x rest hb h hx => ?_, fun s idx rest h => ⟨fun hb => ?_, fun hb hidx hs => ?_⟩,
    fun s idx data rest h hb => ?_, fun s rest h => ⟨fun hb => ?_, fun hb hs => ?_, fun hb hs => ?_⟩⟩
  · obtain ⟨t, hst, ht, hidle, hk, hperform⟩ := step_held hb h (heldWhileBusy_access hx)
    refine ⟨t, hst, ht, hidle, hk.script, hk.answers, hk.msgBase, hk.msgLen, hk.keyBase, hk.keyLen, ?_, ?_⟩
    · rintro idx data rfl
      exact hperform
    · rintro idx rfl
      rw [hperform, ← hk.answers]
      rfl
  · exact step_perform_idle hb h
  · exact step_perform_pending hb h ((heldWhileBusy_read_iff idx).2 hidx) hs
  · exact step_perform_idle hb h
  · rw [step_perform_idle hb h, perform, if_neg (by simp [hb])]
    rfl
  · rw [step_perform_pending hb h rfl hs, perform, if_pos hb, ← h]
    rfl
  · exact step_complete hb (.inr hs)

end Sys2Proof.Machine
end

section
/-! The family of the pure functions (spec/40_primitives.md): addition and rotation of words, the permutations, the Boolean
functions bit by bit, the round constants, and the big-endian conversions. -/

namespace Sys2Proof.Machine

/-- Settles O7: `add32` is the addition of `BitVec 32`. -/
theorem additionWrapsModulo : Obligations.AdditionWrapsModulo :=
  fun a b c => ⟨BitVec.toNat_add a b, BitVec.add_comm a b, BitVec.add_assoc a b c⟩

/-! Rotation (R92): arithmetic form, period, and the bitwise operations it distributes over beside exclusive or. -/

/-- The low part moves up by `n mod 32` places, and the high part comes in below it. -/
theorem rotl_toNat (x : Word) (n : Nat) :
    (rotl x n).toNat = x.toNat * 2 ^ (n % 32) % 2 ^ 32 + x.toNat / 2 ^ (32 - n % 32) := by
  have hs : n % 32 < 32 := Nat.mod_lt _ (by omega)
  rw [rotl, BitVec.toNat_rotateLeft, Nat.mod_mod, Nat.shiftLeft_eq, Nat.shiftRight_eq_div_pow]
  generalize n % 32 = s at hs
  have hsplit : (2 : Nat) ^ 32 = 2 ^ (32 - s) * 2 ^ s := by rw [← pow_add, Nat.sub_add_cancel hs.le]
  have hhigh : x.toNat / 2 ^ (32 - s) < 2 ^ s := Nat.div_lt_of_lt_mul (hsplit ▸ x.isLt)
  have hlow : x.toNat * 2 ^ s % 2 ^ 32 = 2 ^ s * (x.toNat % 2 ^ (32 - s)) := by
    rw [hsplit, Nat.mul_mod_mul_right, Nat.mul_comm]
  rw [hlow, Nat.two_pow_add_eq_or_of_lt hhigh]

theorem rotl_add_32 (x : Word) (n : Nat) : rotl x (n + 32) = rotl x n := by
  rw [← rotl_mod, Nat.add_mod_right, rotl_mod]

theorem rotl_32_mul (x : Word) (m : Nat) : rotl x (32 * m) = x := by
  rw [← rotl_mod, Nat.mul_mod_right, rotl_zero]

theorem rotl_and (x y : Word) (n : Nat) : rotl (x &&& y) n = rotl x n &&& rotl y n :=
  eq_of_rotated_bits n fun i hi => by simp only [BitVec.getLsbD_and, rotl_getLsbD _ _ hi]

theorem rotl_or (x y : Word) (n : Nat) : rotl (x ||| y) n = rotl x n ||| rotl y n :=
  eq_of_rotated_bits n fun i hi => by simp only [BitVec.getLsbD_or, rotl_getLsbD _ _ hi]

theorem rotl_not (x : Word) (n : Nat) : rotl (~~~x) n = ~~~rotl x n :=
  eq_of_rotated_bits n fun i hi => by
    have hlt : (i + n % 32) % 32 < 32 := Nat.mod_lt _ (by omega)
    simp only [BitVec.getLsbD_not, rotl_getLsbD _ _ hi, hi, hlt]

/-- Settles O8: the laws hold bit by bit; a carry out of bit 31 is lost before a rotation and not after it. -/
theorem rotationMovesBits : Obligations.RotationMovesBits := by
  refine ⟨fun x n => ⟨rotl_toNat x n, fun i hi => rotl_getLsbD x n hi, rotl_zero x, rotl_32_mul x 1, rotl_add_32 x n,
    rotl_rotl x n, fun y => ⟨rotl_xor x y n, rotl_and x y n, rotl_or x y n⟩, rotl_not x n⟩, ?_, by decide⟩
  exact ⟨0x80000000, 0x80000000, 1, by decide⟩

/-! `P0` as the polynomial `1 + t^9 + t^17` in the rotation `t` over the field of two elements: squaring it doubles the
exponents, and `t^32 = 1` (R93). -/

theorem P0_xor (x y : Word) : P0 (x ^^^ y) = P0 x ^^^ P0 y := by
  simp only [P0, rotl_xor]
  ac_rfl

/-- The square of `x + a + b` where `x` is one: the mixed terms are there twice and cancel. -/
theorem xor_mixed_cancel (x a b aa ab bb : Word) :
    x ^^^ a ^^^ b ^^^ (a ^^^ aa ^^^ ab) ^^^ (b ^^^ ab ^^^ bb) = x ^^^ aa ^^^ bb := by
  calc
    _ = x ^^^ aa ^^^ bb ^^^ (a ^^^ a) ^^^ (b ^^^ b) ^^^ (ab ^^^ ab) := by ac_rfl
    _ = x ^^^ aa ^^^ bb := by simp only [BitVec.xor_self, BitVec.xor_zero]

theorem P0_iterate_two_pow (k : Nat) (x : Word) :
    P0^[2 ^ k] x = x ^^^ rotl x (9 * 2 ^ k) ^^^ rotl x (17 * 2 ^ k) := by
  induction k generalizing x with
  | zero => rfl
  | succ k ih =>
    have hmixed : 17 * 2 ^ k + 9 * 2 ^ k = 9 * 2 ^ k + 17 * 2 ^ k := Nat.add_comm ..
    rw [pow_succ, Nat.mul_two, Function.iterate_add_apply, ih, ih]
    simp only [rotl_xor, rotl_rotl, hmixed, Nat.mul_add]
    exact xor_mixed_cancel ..

theorem P0_iterate_32 (x : Word) : P0^[32] x = x := by
  have h := P0_iterate_two_pow 5 x
  rwa [Nat.mul_comm 9, Nat.mul_comm 17, show 2 ^ 5 = 32 by rfl, rotl_32_mul, rotl_32_mul, BitVec.xor_self,
    BitVec.zero_xor] at h

theorem P0_bijective : Function.Bijective P0 :=
  Function.bijective_iff_has_inverse.2
    ⟨P0^[31], P0_iterate_32, fun x => (Function.iterate_succ_apply' P0 31 x).symm.trans (P0_iterate_32 x)⟩

/-- Settles O9: the inverse of `P0` is its iterate of order 31. -/
theorem permutationsOfWords : Obligations.PermutationsOfWords :=
  ⟨fun _ => rfl, P0_bijective, P0_xor, by decide, by decide, fun _ => rfl, by decide, by decide⟩

/-! The Boolean functions at one bit, on both sides of the switch (R95, R96). -/

section
variable {j : Nat} (x y z : Word) {i : Nat}

theorem FF_eq_xor (h : j ≤ 15) : FF j x y z = x ^^^ y ^^^ z := if_pos h

theorem FF_eq_majority (h : 16 ≤ j) : FF j x y z = (x &&& y) ||| (x &&& z) ||| (y &&& z) := if_neg (by omega)

theorem GG_eq_xor (h : j ≤ 15) : GG j x y z = x ^^^ y ^^^ z := if_pos h

theorem GG_eq_choose (h : 16 ≤ j) : GG j x y z = (x &&& y) ||| (~~~x &&& z) := if_neg (by omega)

theorem FF_getLsbD_iff_two_of_three (h : 16 ≤ j) :
    (FF j x y z).getLsbD i = true ↔ 2 ≤ (x.getLsbD i).toNat + (y.getLsbD i).toNat + (z.getLsbD i).toNat := by
  simp only [FF_eq_majority x y z h, BitVec.getLsbD_or, BitVec.getLsbD_and]
  cases x.getLsbD i <;> cases y.getLsbD i <;> cases z.getLsbD i <;> decide

theorem GG_getLsbD_choose (h : 16 ≤ j) (hi : i < 32) :
    (GG j x y z).getLsbD i = if x.getLsbD i then y.getLsbD i else z.getLsbD i := by
  simp only [GG_eq_choose x y z h, BitVec.getLsbD_or, BitVec.getLsbD_and, BitVec.getLsbD_not, hi]
  cases x.getLsbD i <;> simp

end

/-- Settles O10: each function is a bitwise operation on either side of the switch at round 16. -/
theorem booleanFunctionsBitByBit : Obligations.BooleanFunctionsBitByBit := by
  refine ⟨fun j x y z i hi => ⟨fun h => ⟨?_, ?_⟩, fun h => ⟨?_, ?_⟩⟩, by decide⟩
  · rw [FF_eq_xor x y z h, BitVec.getLsbD_xor, BitVec.getLsbD_xor]
  · rw [GG_eq_xor x y z h, BitVec.getLsbD_xor, BitVec.getLsbD_xor]
  · exact FF_getLsbD_iff_two_of_three x y z h
  · exact GG_getLsbD_choose x y z h hi

/-- Settles O11: the two clauses are the definitions of the constants, and the table is their values. -/
theorem roundConstantTable : Obligations.RoundConstantTable :=
  ⟨fun _ => rfl, fun _ => rfl, by decide⟩

/-! Bytes as digits to the base 256 (R98, R99, R100). -/

theorem extractByte_toNat (w : Word) (k : Nat) : (w.extractLsb' k 8).toNat = w.toNat / 2 ^ k % 256 := by
  rw [BitVec.extractLsb'_toNat, Nat.shiftRight_eq_div_pow]

theorem ser_eq_flatMap (x : Words8) : ser x = (List.finRange 8).flatMap (fun i => bytes32 (word8 x i)) := rfl

theorem bytes64_getD_toNat (n : Nat) {t : Nat} (ht : t < 8) :
    ((bytes64 n).getD t 0).toNat = n / 2 ^ (8 * (7 - t)) % 256 := by
  simp [bytes64, ht]

/-- Reading the first `k` of the eight bytes gives the number without its last `8 - k` digits to the base 256. -/
theorem foldl_take_bytes64 {n : Nat} (hn : n < 2 ^ 64) :
    ∀ k, k ≤ 8 → ((bytes64 n).take k).foldl (fun acc b => 256 * acc + b.toNat) 0 = n / 2 ^ (8 * (8 - k)) := by
  intro k
  induction k with
  | zero => exact fun _ => (Nat.div_eq_of_lt hn).symm
  | succ k ih =>
    intro hk
    have hlen : k < (bytes64 n).length := by rw [bytes64_length]; omega
    have hbyte := bytes64_getD_toNat n (t := k) (by omega)
    have hdiv : n / 2 ^ (8 * (8 - k)) = n / 2 ^ (8 * (7 - k)) / 256 := by
      rw [Nat.div_div_eq_div_mul, show 8 * (8 - k) = 8 * (7 - k) + 8 by omega, pow_add, show 2 ^ 8 = 256 by rfl]
    rw [List.getD_eq_getElem _ _ hlen] at hbyte
    rw [List.take_succ_eq_append_getElem hlen, List.foldl_append, ih (by omega), List.foldl_cons, List.foldl_nil,
      hbyte, hdiv, show 8 - (k + 1) = 7 - k by omega, Nat.div_add_mod]

theorem foldl_bytes64 {n : Nat} (hn : n < 2 ^ 64) : (bytes64 n).foldl (fun acc b => 256 * acc + b.toNat) 0 = n := by
  have h := foldl_take_bytes64 hn 8 (le_refl 8)
  rwa [List.take_of_length_le (bytes64_length n).le, Nat.sub_self, Nat.mul_zero, pow_zero, Nat.div_one] at h

/-- Settles O12: the bytes of a word and of a number are its digits to the base 256, the most significant first. -/
theorem byteConversionsAreBigEndian : Obligations.ByteConversionsAreBigEndian :=
  ⟨be32_toNat, fun w => ⟨_, _, _, _, rfl, be32_bytes32 w, extractByte_toNat w 24, extractByte_toNat w 16,
      extractByte_toNat w 8, by rw [extractByte_toNat, pow_zero, Nat.div_one]⟩,
    fun x => ⟨ser_eq_flatMap x, ser_length x⟩,
    fun n hn => ⟨bytes64_length n, fun _ ht => bytes64_getD_toNat n ht, foldl_bytes64 hn⟩, by decide⟩

end Sys2Proof.Machine
end

section
/-! The family of the preprocessor (spec/41_preprocessor.md): the zero count, the padded lengths, the padded string by
position and by block, the properties of padding, and `PADBLK`. -/

namespace Sys2Proof.Machine

/-! The number of zero bits and of zero bytes (R111). -/

theorem kbits_mod (len : Nat) : (len + 1 + kbits len) % 512 = 448 := by unfold kbits; omega

theorem kbits_lt (len : Nat) : kbits len < 512 := by unfold kbits; omega

/-- Two counts that reach 448 differ by a multiple of 512, and `kbits` is below 512. -/
theorem kbits_le {len k : Nat} (h : (len + 1 + k) % 512 = 448) : kbits len ≤ k := by
  have hmod := kbits_mod len
  have hlt := kbits_lt len
  omega

theorem zeroBytes_mod (n : Nat) : (n + zeroBytes n) % 64 = 55 := by unfold zeroBytes; omega

theorem zeroBytes_le (n : Nat) : zeroBytes n ≤ 63 := by unfold zeroBytes; omega

theorem kbits_bytes (n : Nat) : kbits (8 * n) = 8 * zeroBytes n + 7 := by unfold kbits zeroBytes; omega

/-- Settles O13: a count below 512 is fixed by its residue, and the block the message ends in follows from it. -/
theorem zeroBitCountIsLeast : Obligations.ZeroBitCountIsLeast := by
  refine ⟨fun len => ⟨kbits_mod len, fun k hk => kbits_le hk, fun hlow => ?_, fun hhigh => ?_⟩, rfl, rfl, rfl, rfl, rfl,
    rfl, rfl, fun n => ⟨kbits_bytes n, zeroBytes_mod n, zeroBytes_le n⟩⟩
  all_goals
    have hmod := kbits_mod len
    have hlt := kbits_lt len
    omega

/-! The lengths of the padded form (R113). -/

theorem padlen_eq_sum (n : Nat) : padlen n = n + 1 + zeroBytes n + 8 := by
  have hmod := zeroBytes_mod n
  have hle := zeroBytes_le n
  unfold padlen nblocks
  omega

theorem pad_length (S : Bytes) : (pad S).length = padlen S.length := by
  simp only [pad, List.length_append, List.length_replicate, List.length_singleton, bytes64_length, padlen_eq_sum]

theorem nblocks_eq_div (n : Nat) : nblocks n = padlen n / 64 := by unfold padlen; omega

theorem padlen_bounds (n : Nat) : n + 9 ≤ padlen n ∧ padlen n ≤ n + 72 := by
  have hle := zeroBytes_le n
  rw [padlen_eq_sum]
  omega

theorem nblocks_le {n : Nat} (h : n < 2 ^ 61) : nblocks n ≤ 2 ^ 55 + 1 := by unfold nblocks; omega

/-- Settles O14: the length is the sum of the parts, and the zero bytes bring it to a multiple of 64. -/
theorem paddedLengths : Obligations.PaddedLengths :=
  ⟨fun S => ⟨rfl, pad_length S⟩,
    fun n => ⟨padlen_eq_sum n, rfl, nblocks_eq_div n, Nat.le_add_left .., (padlen_bounds n).1, (padlen_bounds n).2,
      nblocks_le⟩, by decide⟩

/-! The padded string by position, one lemma a part (R114). -/

theorem pad_getElem?_message {S : Bytes} {p : Nat} (h : p < S.length) : (pad S)[p]? = S[p]? := by
  simp only [pad, List.append_assoc, List.getElem?_append_left h]

theorem pad_getElem?_mark (S : Bytes) : (pad S)[S.length]? = some 0x80 := by
  simp only [pad, List.append_assoc, List.getElem?_append_right (le_refl _), Nat.sub_self, List.cons_append,
    List.getElem?_cons_zero]

theorem pad_getElem?_zero {S : Bytes} {p : Nat} (hlow : S.length < p) (hhigh : p < padlen S.length - 8) :
    (pad S)[p]? = some 0x00 := by
  have hz : p - (S.length + 1) < zeroBytes S.length := by rw [padlen_eq_sum] at hhigh; omega
  rw [pad, List.getElem?_append_left (by simp; omega), List.getElem?_append_right (by simp; omega),
    List.length_append, List.length_singleton, List.getElem?_replicate, if_pos hz]

theorem pad_drop_lengthField (S : Bytes) : (pad S).drop (padlen S.length - 8) = bytes64 (8 * S.length) := by
  refine List.drop_left' ?_
  simp only [List.length_append, List.length_replicate, List.length_singleton, padlen_eq_sum, Nat.add_sub_cancel]

theorem pad_getElem?_lengthField {S : Bytes} {p : Nat} (h : padlen S.length - 8 ≤ p) :
    (pad S)[p]? = (bytes64 (8 * S.length))[p - (padlen S.length - 8)]? := by
  rw [← pad_drop_lengthField, List.getElem?_drop, Nat.add_sub_cancel' h]

/-- The four parts together: the byte string as a stream, padded by `padByte`. -/
theorem pad_getD (S : Bytes) (p : Nat) : (pad S).getD p 0 = padByte ⟨S.length, fun q => S.getD q 0⟩ p := by
  unfold padByte
  simp only [List.getD_eq_getElem?_getD]
  split_ifs with hmsg hmark hzero
  · rw [pad_getElem?_message hmsg]
  · rw [hmark, pad_getElem?_mark, Option.getD_some]
  · rw [pad_getElem?_zero (by omega) hzero, Option.getD_some]
  · rw [pad_getElem?_lengthField (by omega)]

/-- Padding reads the message at the position alone. -/
theorem pad_getElem?_congr {S S' : Bytes} {p : Nat} (hlen : S.length = S'.length)
    (h : p < S.length → S[p]? = S'[p]?) : (pad S)[p]? = (pad S')[p]? := by
  rcases Nat.lt_or_ge p S.length with hmsg | hpad
  · rw [pad_getElem?_message hmsg, pad_getElem?_message (hlen ▸ hmsg), h hmsg]
  · simp only [pad, List.append_assoc, List.getElem?_append_right hpad, List.getElem?_append_right (hlen ▸ hpad), hlen]

/-! The blocks of the padded string (R114, R115). -/

theorem padblock_getElem? (S : Bytes) (i : Nat) {t : Nat} (h : t < 64) :
    (padblock S i)[t]? = (pad S)[64 * i + t]? := by
  rw [padblock, List.getElem?_take_of_lt h, List.getElem?_drop]

theorem padblock_getD (S : Bytes) (i : Nat) {t : Nat} (h : t < 64) :
    (padblock S i).getD t 0 = (pad S).getD (64 * i + t) 0 := by
  rw [List.getD_eq_getElem?_getD, List.getD_eq_getElem?_getD, padblock_getElem? S i h]

theorem padblock_length {S : Bytes} {i : Nat} (h : i < nblocks S.length) : (padblock S i).length = 64 := by
  rw [padblock, List.length_take, List.length_drop, pad_length, padlen]
  omega

theorem padblock_congr {S S' : Bytes} {i : Nat} (hlen : S.length = S'.length)
    (h : ∀ p, 64 * i ≤ p → p < min (64 * i + 64) S.length → S[p]? = S'[p]?) : padblock S i = padblock S' i := by
  refine List.ext_getElem? fun t => ?_
  rcases Nat.lt_or_ge t 64 with ht | ht
  · rw [padblock_getElem? S i ht, padblock_getElem? S' i ht]
    exact pad_getElem?_congr hlen fun hp => h _ (by omega) (by omega)
  · rw [padblock, padblock, List.getElem?_take_eq_none ht, List.getElem?_take_eq_none ht]

/-- A fetch gives the block of the padded string: byte by byte both are `padByte`. -/
theorem streamBlock_eq_blockOfBytes (S : ByteStream) (i : Nat) :
    streamBlock S i = blockOfBytes (padblock (streamBytes S) i) := by
  refine Vector.ext fun t ht => ?_
  rw [streamBlock_getElem, blockOfBytes_getElem, padblock_getD _ _ ht, pad_getD, padByte, padByte, streamBytes_length]
  split
  · exact (streamBytes_getD S ‹_›).symm
  · rfl

theorem blockOfBytes_toList {S : Bytes} (h : S.length = 64) : (blockOfBytes S).toList = S := by
  refine List.ext_getElem (by rw [Vector.length_toList, h]) fun t _ ht => ?_
  rw [Vector.getElem_toList, blockOfBytes_getElem, List.getD_eq_getElem _ _ ht]

/-- Settles O15: each part of the padded string by its position, and a block is 64 of those bytes. -/
theorem paddedBytesByPosition : Obligations.PaddedBytesByPosition := by
  refine ⟨fun S p _ => pad_getD S p, fun S i hi => ⟨padblock_length hi, fun t ht => padblock_getD S i ht⟩,
    fun S i hi => ?_, fun S S' i => padblock_congr⟩
  rw [streamBlock_eq_blockOfBytes, blockOfBytes_toList (padblock_length (by rwa [streamBytes_length]))]

/-! Properties of padding (R118). -/

theorem pad_take_message (S : Bytes) : (pad S).take S.length = S := by
  simp only [pad, List.append_assoc, List.take_left]

theorem bytes64_injective {m n : Nat} (hm : m < 2 ^ 64) (hn : n < 2 ^ 64) (h : bytes64 m = bytes64 n) : m = n := by
  rw [← foldl_bytes64 hm, h, foldl_bytes64 hn]

/-- The message is recovered from its padded form: the last 8 bytes give its length, and it is the front of that
length. -/
theorem pad_injective {S T : Bytes} (hS : S.length < 2 ^ 61) (hT : T.length < 2 ^ 61) (h : pad S = pad T) : S = T := by
  have hpadlen : padlen S.length = padlen T.length := by rw [← pad_length, h, pad_length]
  have hfield : bytes64 (8 * S.length) = bytes64 (8 * T.length) := by
    rw [← pad_drop_lengthField, h, hpadlen, pad_drop_lengthField]
  have hlen : S.length = T.length := by
    have hbits := bytes64_injective (by omega) (by omega) hfield
    omega
  rw [← pad_take_message S, h, hlen, pad_take_message]

theorem bitLength_boundary_iff (n : Nat) : 8 * n % 512 ∈ [0, 440, 448, 504] ↔ n % 64 ∈ [0, 55, 56, 63] := by
  simp only [List.mem_cons, List.not_mem_nil, or_false]
  omega

/-- Settles O16: the parts of the padded string at its two ends, and a multiple of 8 is no odd residue modulo 512. -/
theorem paddingProperties : Obligations.PaddingProperties := by
  refine ⟨fun S _ => ⟨?_, ?_, pad_getElem?_mark S, pad_take_message S⟩, fun S T => pad_injective,
    fun n => ⟨by omega, by omega, bitLength_boundary_iff n⟩⟩
  · rw [pad_length, padlen, Nat.mul_mod_right]
  · rw [pad_length, pad_drop_lengthField]

/-! `PADBLK`: which fault it raises, and its effect as one update of the state (R116, R117). -/

section
variable {s : State}

theorem padblkFault_len (h : 2 ^ 61 ≤ s.msgLen.toNat) : s.padblkFault = some .len := if_pos h

theorem padblkFault_range (hlen : s.msgLen.toNat < 2 ^ 61) (h : s.msgBeyondTop) : s.padblkFault = some .range := by
  rw [State.padblkFault, if_neg (by omega), if_pos h]

theorem padblkFault_seq (hlen : s.msgLen.toNat < 2 ^ 61) (htop : ¬ s.msgBeyondTop)
    (h : nblocks s.msgLen.toNat ≤ s.blkidx.toNat) : s.padblkFault = some .seq := by
  rw [State.padblkFault, if_neg (by omega), if_neg htop, if_pos h]

theorem padblkFault_none (hlen : s.msgLen.toNat < 2 ^ 61) (htop : ¬ s.msgBeyondTop)
    (h : s.blkidx.toNat < nblocks s.msgLen.toNat) : s.padblkFault = none := by
  rw [State.padblkFault, if_neg (by omega), if_neg htop, if_neg (by omega)]

end

theorem exec_padblk_fault {s : State} {c : FaultCode} (herr : s.err = false) (h : s.padblkFault = some c) :
    exec .padblk s = .next { s with err := true, ecode := faultCode c, done := false } :=
  exec_fault (i := .padblk) nofun herr h

theorem messageOf_length (s : State) : (messageOf s).length = s.msgLen.toNat := streamBytes_length s.msgStream

theorem padblkEffect_eq (s : State) :
    padblkEffect s =
      { s with
        b := blockOfBytes (padblock (messageOf s) s.blkidx.toNat)
        fin := decide (s.blkidx.toNat + 1 = nblocks s.msgLen.toNat)
        blkidx := s.blkidx + 1
        done := false } := by
  have hblock : streamBlock s.msgStream s.blkidx.toNat = blockOfBytes (padblock (messageOf s) s.blkidx.toNat) :=
    streamBlock_eq_blockOfBytes s.msgStream s.blkidx.toNat
  apply State.ext <;> simp [hblock]

/-- Settles O25: the fault conditions in their order, and where none holds the effect with the block it fetches. -/
theorem padblkProducesNextBlock : Obligations.PadblkProducesNextBlock := by
  refine ⟨by decide, fun s herr => ⟨fun hlen => ?_, fun hlen htop => ?_, fun hlen htop hseq => ?_,
    fun hlen htop hblk => ?_⟩⟩
  · exact exec_padblk_fault herr (padblkFault_len hlen)
  · exact exec_padblk_fault herr (padblkFault_range hlen htop)
  · exact exec_padblk_fault herr (padblkFault_seq hlen htop.not_gt hseq)
  · have hnone : s.padblkFault = none := padblkFault_none hlen htop.not_gt hblk
    refine ⟨?_, ?_, ?_⟩
    · rw [← padblkEffect_eq]
      exact exec_ok (i := .padblk) nofun herr hnone
    · rw [← padblkEffect_blkidx, padblkEffect_blkidx_toNat hnone]
    · exact padblock_length (by rwa [messageOf_length])

end Sys2Proof.Machine
end

section
/-! The family of the word expander (spec/42_expander.md): the recurrence over the words of a block, and `EXPAND`. -/

namespace Sys2Proof.Machine

/-! The words of a block (R131, R132). -/

theorem nativeWords_length (blk : Vector Byte 64) : (nativeWords blk).length = 16 := by
  rw [nativeWords, List.length_map, List.length_range]

theorem nativeWords_getD (blk : Vector Byte 64) {i : Nat} (h : i < 16) :
    (nativeWords blk).getD i 0 =
      be32 (blk.getD (4 * i) 0) (blk.getD (4 * i + 1) 0) (blk.getD (4 * i + 2) 0) (blk.getD (4 * i + 3) 0) := by
  simp [nativeWords, h]

/-- The right side of the recurrence at index `j`, for words given by their index (R132). -/
def recurrence (W : Nat → Word) (j : Nat) : Word :=
  P1 (W (j - 16) ^^^ W (j - 9) ^^^ rotl (W (j - 3)) 15) ^^^ rotl (W (j - 13)) 7 ^^^ W (j - 6)

theorem nextWord_eq_recurrence (ws : List Word) : nextWord ws = recurrence (fun p => ws.getD p 0) ws.length := rfl

/-- Every word the recurrence reads is an earlier one. -/
theorem recurrence_congr {W W' : Nat → Word} {j : Nat} (hj : 0 < j) (h : ∀ p, p < j → W p = W' p) :
    recurrence W j = recurrence W' j := by
  have hback (d : Nat) (hd : 0 < d) : W (j - d) = W' (j - d) := h _ (by omega)
  rw [recurrence, recurrence, hback 16 (by omega), hback 9 (by omega), hback 3 (by omega), hback 13 (by omega),
    hback 6 (by omega)]

theorem recurrence_zero (j : Nat) : recurrence (fun _ => 0) j = 0 := by
  simp only [recurrence]
  decide

/-- Each word that is appended obeys the recurrence over the finished list: the words it was made from are kept. -/
theorem extendWords_recurrence (count : Nat) {ws : List Word} {j : Nat} (hpos : 0 < ws.length) (hlow : ws.length ≤ j)
    (hhigh : j < ws.length + count) :
    (extendWords count ws).getD j 0 = recurrence (fun p => (extendWords count ws).getD p 0) j := by
  induction count generalizing ws with
  | zero => omega
  | succ count ih =>
    rcases Nat.eq_or_lt_of_le hlow with rfl | hlater
    · have hword : (extendWords (count + 1) ws).getD ws.length 0 = nextWord ws := by
        rw [extendWords_succ, extendWords_keeps count _ (by simp)]
        simp
      rw [hword, nextWord_eq_recurrence]
      exact recurrence_congr hpos fun p hp => (extendWords_keeps (count + 1) ws hp).symm
    · have hlength : (ws ++ [nextWord ws]).length = ws.length + 1 := by simp
      rw [extendWords_succ]
      exact ih (by omega) (by omega) (by omega)

theorem expandW_native (blk : Vector Byte 64) {i : Nat} (h : i < 16) :
    (expandW blk).getD i 0 =
      be32 (blk.getD (4 * i) 0) (blk.getD (4 * i + 1) 0) (blk.getD (4 * i + 2) 0) (blk.getD (4 * i + 3) 0) := by
  rw [expandW_getD blk (by omega), extendWords_keeps _ _ (by rwa [nativeWords_length]), nativeWords_getD blk h]

theorem expandW_recurrence (blk : Vector Byte 64) {j : Nat} (hlow : 16 ≤ j) (hhigh : j < 68) :
    (expandW blk).getD j 0 = recurrence (fun p => (expandW blk).getD p 0) j := by
  have hlength : (nativeWords blk).length = 16 := nativeWords_length blk
  rw [expandW_getD blk hhigh, extendWords_recurrence 52 (by omega) (by omega) (by omega)]
  exact recurrence_congr (by omega) fun p hp => (expandW_getD blk (by omega)).symm

/-- Settles O17: the first sixteen words are the block's, every later one obeys the recurrence, and the mixed words are
read off both. -/
theorem expansionOfBlock : Obligations.ExpansionOfBlock := fun blk =>
  ⟨fun _ hi => expandW_native blk hi, fun _ hlow hhigh => expandW_recurrence blk hlow (by omega),
    fun _ hj => mixWords_getD (expandW blk) (by omega)⟩

/-! `EXPAND`, and the block of zeros (R134). -/

/-- `EXPAND` on an unlocked block as one update of the state. -/
theorem exec_expand {s : State} (herr : s.err = false) :
    exec .expand s = .next { s with w := (expandBlock s.b).1, wp := (expandBlock s.b).2, done := false } :=
  exec_ok (i := .expand) nofun herr rfl

/-- By induction on the index: the native words are zero, and so is the recurrence over zeros. -/
theorem expandW_zero_getD {j : Nat} (h : j < 68) : (expandW (Vector.replicate 64 0)).getD j 0 = 0 := by
  induction j using Nat.strong_induction_on with
  | h j ih =>
    rcases Nat.lt_or_ge j 16 with hnative | hlater
    · have hbyte {p : Nat} (hp : p < 64) : (Vector.replicate 64 (0 : Byte)).getD p 0 = 0 := by
        rw [vector_getD _ _ hp, Vector.getElem_replicate]
      rw [expandW_native _ hnative, hbyte (by omega), hbyte (by omega), hbyte (by omega), hbyte (by omega)]
      decide
    · rw [expandW_recurrence _ hlater h, recurrence_congr (by omega) fun p hp => ih p hp (by omega), recurrence_zero]

theorem expandW_zero : expandW (Vector.replicate 64 0) = Vector.replicate 68 0 :=
  Vector.ext fun j hj => by rw [← vector_getD _ 0 hj, expandW_zero_getD hj, Vector.getElem_replicate]

theorem mixWords_zero : mixWords (Vector.replicate 68 0) = Vector.replicate 64 0 :=
  Vector.ext fun j hj => by
    rw [← vector_getD _ 0 hj, mixWords_getD _ hj, vector_getD _ _ (by omega), vector_getD _ _ (by omega)]
    simp

/-- Settles O26: the source of `EXPAND` is not among what it writes, so the second time it writes the same. -/
theorem expandFillsBothFiles : Obligations.ExpandFillsBothFiles := by
  refine ⟨by decide, fun s herr => ⟨exec_expand herr, ?_⟩, ?_⟩
  · rw [exec_expand herr, andThen_next]
    exact exec_expand herr
  · rw [expandBlock, expandW_zero, mixWords_zero]

end Sys2Proof.Machine
end

section
/-! The family of the compression engine (spec/43_compression.md): the round as a bijection, the 64 rounds of a block,
and `LDREG`, `ROUND N`, `COMPRESS`. -/

namespace Sys2Proof.Machine

open State

/-! The round function (R143). -/

theorem sm3Round_eq (j : Nat) (x : Words8) (w wp : Word) :
    sm3Round j x w wp =
      { a := add32 (add32 (add32 (FF j x.a x.b x.c) x.d)
          (rotl (add32 (add32 (rotl x.a 12) x.e) (TR j)) 7 ^^^ rotl x.a 12)) wp
        b := x.a
        c := rotl x.b 9
        d := x.c
        e := P0 (add32 (add32 (add32 (GG j x.e x.f x.g) x.h)
          (rotl (add32 (add32 (rotl x.a 12) x.e) (TR j)) 7)) w)
        f := x.e
        g := rotl x.f 19
        h := x.g } := by
  rw [sm3Round]

/-- A rotation by `n` is undone by 31 more of them. -/
theorem rotl_injective (n : Nat) : Function.Injective (rotl · n) :=
  Function.LeftInverse.injective (g := (rotl · (31 * n))) fun x => by
    show rotl (rotl x n) (31 * n) = x
    rw [rotl_rotl, show n + 31 * n = 32 * n by omega, rotl_32_mul]

/-- A middle summand is determined by a sum of four words and the other three summands. -/
theorem add32_cancel_second {f d d' s w : Word}
    (h : add32 (add32 (add32 f d) s) w = add32 (add32 (add32 f d') s) w) : d = d' := by
  unfold add32 at h
  exact add_left_cancel (add_right_cancel (add_right_cancel h))

/-- Six of the registers are moved or rotated; `D` and `H` are then the one unknown summand of a sum each. -/
theorem sm3Round_injective (j : Nat) (w wp : Word) : Function.Injective (fun x : Words8 => sm3Round j x w wp) := by
  rintro ⟨a, b, c, d, e, f, g, h⟩ ⟨a', b', c', d', e', f', g', h'⟩ heq
  simp only [sm3Round_eq, Words8.mk.injEq] at heq
  obtain ⟨hsumA, rfl, hb, rfl, hsumE, rfl, hf, rfl⟩ := heq
  obtain rfl : b = b' := rotl_injective 9 hb
  obtain rfl : f = f' := rotl_injective 19 hf
  obtain rfl : d = d' := add32_cancel_second hsumA
  obtain rfl : h = h' := add32_cancel_second (P0_bijective.injective hsumE)
  rfl

theorem words8_finite : Finite Words8 := by
  refine Finite.of_injective (fun x : Words8 => (x.a, x.b, x.c, x.d, x.e, x.f, x.g, x.h)) fun _ _ h => ?_
  simpa only [Prod.mk.injEq, ← Words8.ext_iff] using h

theorem sm3Round_bijective (j : Nat) (w wp : Word) : Function.Bijective (fun x : Words8 => sm3Round j x w wp) :=
  have := words8_finite
  Finite.injective_iff_bijective.1 (sm3Round_injective j w wp)

/-- Settles O18: a round loses no information, and there are only finitely many register contents. -/
theorem roundIsBijective : Obligations.RoundIsBijective := fun j w wp =>
  ⟨fun x => sm3Round_eq j x w wp, sm3Round_bijective j w wp, by rw [sm3Round_eq]; decide⟩

/-! The rounds of a block (R140, R147). -/

theorem compressBlock_congr {w w' : Vector Word 68} (h : ∀ j, j < 64 → w'.getD j 0 = w.getD j 0) (state : Words8)
    (wp : Vector Word 64) : compressBlock state w' wp = compressBlock state w wp := by
  rw [compressBlock, compressBlock, rounds64, rounds64, runRounds_congr wp fun p _ hp => h p (by omega)]

/-- Settles O19: `X_j` is the registers after the first `j` rounds. -/
theorem compressionIsSixtyFourRounds : Obligations.CompressionIsSixtyFourRounds := by
  refine fun state w wp => ⟨⟨fun j => runRounds w wp j 0 state, runRounds_zero .., fun j _ => ?_, rfl⟩, rfl,
    fun w' h => compressBlock_congr h state wp⟩
  simpa only [Nat.zero_add] using runRounds_last w wp j 0 state

/-! `DONE <- 0` does not meet the data path, so it may be done once at the end (R30). -/

section
variable (s : State)

@[simp] theorem clearDone_clearDone : s.clearDone.clearDone = s.clearDone := rfl

@[simp] theorem clearDone_doRounds (n : Nat) : s.clearDone.doRounds n = (s.doRounds n).clearDone := by
  apply State.ext <;> simp

@[simp] theorem clearDone_feedForward : s.clearDone.feedForward = s.feedForward.clearDone := by
  apply State.ext <;> simp

end

theorem execAll_cons_next {i : Instr} {s t : State} (rest : List Instr) (h : exec i s = .next t) :
    execAll (i :: rest) s = execAll rest t := by
  rw [execAll, h, andThen_next]

/-! `LDREG` (R144). -/

/-- `LDREG` on an unlocked block as one update of the state. -/
theorem exec_ldreg {s : State} (herr : s.err = false) :
    exec .ldreg s = .next { s with r := s.v, j := 0, done := false } :=
  exec_ok (i := .ldreg) nofun herr rfl

/-- Settles O27: the source of `LDREG` is not among what it writes, so the second time it writes the same. -/
theorem ldregCopiesRunningState : Obligations.LdregCopiesRunningState := by
  refine ⟨by decide, fun s herr => ⟨exec_ldreg herr, ?_⟩⟩
  rw [exec_ldreg herr, andThen_next]
  exact exec_ldreg herr

/-! `ROUND N` (R145). -/

theorem encode_round (n : BitVec 7) : encode (.round n) = 0x13000000 + n.setWidth 32 := by
  have hn := n.isLt
  have h : (encode (.round n)).toNat = 0x13 * 2 ^ 24 + n.toNat := formatN_toNat 0x13 n
  apply BitVec.eq_of_toNat_eq
  rw [h, BitVec.toNat_add, BitVec.toNat_setWidth, show (0x13000000 : Word).toNat = 0x13000000 from rfl]
  omega

section
variable {s : State} {n : BitVec 7}

theorem roundFault_seq (h : 64 < s.j.toNat + n.toNat) : s.roundFault n = some .seq := if_pos h

theorem roundFault_none (h : s.j.toNat + n.toNat ≤ 64) : s.roundFault n = none := if_neg (by omega)

/-- Where the rounds end at `J <= 64`, `ROUND N` on an unlocked block makes them. -/
theorem exec_round (herr : s.err = false) (h : s.j.toNat + n.toNat ≤ 64) :
    exec (.round n) s = .next (s.doRounds n.toNat).clearDone :=
  exec_ok (i := .round n) nofun herr (roundFault_none h)

theorem exec_round_one (herr : s.err = false) (h : s.j.toNat + 1 ≤ 64) :
    exec (.round 1) s = .next (s.doRounds 1).clearDone := exec_round herr h

end

theorem doRounds_clearDone_eq (s : State) (n : Nat) :
    (s.doRounds n).clearDone =
      { s with r := runRounds s.w s.wp n s.j.toNat s.r, j := BitVec.ofNat 7 (s.j.toNat + n), done := false } := by
  apply State.ext <;> simp [BitVec.ofNat_add]

theorem doRounds_j_toNat {s : State} {m : Nat} (h : s.j.toNat + m ≤ 64) : (s.doRounds m).j.toNat = s.j.toNat + m := by
  rw [doRounds_j, BitVec.toNat_add, BitVec.toNat_ofNat]
  omega

/-- Rounds in two parts are the rounds of both, as `J` does not overflow in between. -/
theorem doRounds_doRounds {s : State} {m : Nat} (n : Nat) (h : s.j.toNat + m ≤ 64) :
    (s.doRounds m).doRounds n = s.doRounds (m + n) := by
  apply State.ext
  case r => rw [doRounds_r, doRounds_r, doRounds_r, doRounds_w, doRounds_wp, doRounds_j_toNat h, runRounds_add]
  all_goals simp [BitVec.ofNat_add, BitVec.add_assoc]

/-- By induction on the number of commands: the first makes one round, the others those after it. -/
theorem execAll_replicate_round_one (k : Nat) {s : State} (herr : s.err = false) (h : s.j.toNat + (k + 1) ≤ 64) :
    execAll (List.replicate (k + 1) (.round 1)) s = .next (s.doRounds (k + 1)).clearDone := by
  induction k generalizing s with
  | zero => exact execAll_cons_next [] (exec_round_one herr h)
  | succ k ih =>
    have hj : (s.doRounds 1).clearDone.j.toNat = s.j.toNat + 1 := doRounds_j_toNat (by omega)
    rw [List.replicate_succ, execAll_cons_next _ (exec_round_one herr (by omega)), ih (by simpa using herr) (by omega),
      clearDone_doRounds, clearDone_clearDone, doRounds_doRounds _ (by omega), Nat.add_comm 1]

/-- Settles O28: `roundFault` decides between the fault and the rounds, which are made in one part or one by one. -/
theorem roundRunsNextRounds : Obligations.RoundRunsNextRounds := by
  refine ⟨encode_round, fun cw hopc hbad => (decode_eq_error_iff cw).2 (.inr (.inr ⟨hopc, hbad⟩)),
    fun n s herr => ⟨fun h => ?_, fun h => ?_, fun hpos h => ?_⟩⟩
  · exact exec_fault (i := .round n) nofun herr (roundFault_seq h)
  · refine ⟨fun m => runRounds s.w s.wp m s.j.toNat s.r, runRounds_zero .., fun m _ => runRounds_last .., ?_⟩
    rw [exec_round herr h, doRounds_clearDone_eq]
  · obtain ⟨k, hk⟩ : ∃ k, n.toNat = k + 1 := Nat.exists_eq_add_of_le' hpos
    rw [exec_round herr h, hk]
    exact execAll_replicate_round_one k herr (by omega)

/-! `COMPRESS` (R146). -/

theorem compressBuffer_clearDone_eq (s : State) :
    s.compressBuffer.clearDone =
      { s with v := compressBlock s.v s.w s.wp, r := rounds64 s.v s.w s.wp, j := 64, done := false } := by
  apply State.ext <;> simp

theorem exec_compress {s : State} (herr : s.err = false) :
    exec .compress s = .next s.compressBuffer.clearDone := exec_ok (i := .compress) nofun herr rfl

/-- The three commands clear `DONE` three times, and are otherwise the three parts of `compressBuffer`. -/
theorem execAll_ldreg_round_feedfwd {s : State} (herr : s.err = false) :
    execAll [.ldreg, .round 64, .feedfwd] s = .next s.compressBuffer.clearDone := by
  have hldreg : exec .ldreg s = .next s.loadRegs.clearDone := exec_ldreg herr
  have hround : exec (.round 64) s.loadRegs.clearDone = .next (s.loadRegs.clearDone.doRounds 64).clearDone :=
    exec_round herr (Nat.le_refl 64)
  rw [clearDone_doRounds, clearDone_clearDone] at hround
  have hfeedfwd : exec .feedfwd (s.loadRegs.doRounds 64).clearDone =
      .next (s.loadRegs.doRounds 64).clearDone.feedForward.clearDone :=
    exec_ok (i := .feedfwd) nofun (by simpa using herr) rfl
  rw [clearDone_feedForward, clearDone_clearDone] at hfeedfwd
  rw [execAll_cons_next _ hldreg, execAll_cons_next _ hround, execAll_cons_next _ hfeedfwd, execAll, compressBuffer]

/-- Settles O30: both sides are `compressBuffer`, with `DONE` cleared. -/
theorem compressAbsorbsExpandedBlock : Obligations.CompressAbsorbsExpandedBlock := by
  refine ⟨by decide, fun s herr => ⟨?_, ?_⟩⟩
  · rw [exec_compress herr, compressBuffer_clearDone_eq]
  · rw [execAll_ldreg_round_feedfwd herr, exec_compress herr]

end Sys2Proof.Machine
end

section
/-! The family of the digest accumulator (spec/44_accumulator_digest.md) and of the HMAC command: the chaining of the
blocks, `FEEDFWD`, `DIGEST` and `HMAC`, the component commands against `DIGEST`, and the digest registers. -/

namespace Sys2Proof.Machine

open State

/-! The chaining of the blocks (R161, R162). -/

/-- The block absorbed last is the one after the others. -/
theorem absorbBlocks_last (S : Bytes) (count i : Nat) (v : Words8) :
    absorbBlocks S (count + 1) i v = absorb (absorbBlocks S count i v) (blockOfBytes (padblock S (i + count))) := by
  induction count generalizing i v with
  | zero => rfl
  | succ n ih => rw [absorbBlocks, ih, absorbBlocks, Nat.succ_add_eq_add_succ]

/-- Settles O20: `v i` is what the first `i` blocks leave. -/
theorem digestChainsBlocksInOrder : Obligations.DigestChainsBlocksInOrder := by
  refine ⟨fun _ _ => rfl, fun S _ => ⟨⟨fun i => absorbBlocks S i 0 IV, rfl, fun i _ => ?_, rfl⟩, rfl, ser_length _⟩⟩
  simpa only [Nat.zero_add] using absorbBlocks_last S i 0 IV

/-- The block loop absorbs the blocks of the stream's padded byte string (R166). -/
theorem absorbStream_v (S : ByteStream) (count i : Nat) (s : State) :
    (absorbStream S count i s).v = absorbBlocks (streamBytes S) count i s.v := by
  induction count generalizing i s with
  | zero => rw [absorbStream_zero, absorbBlocks]
  | succ n ih => rw [absorbStream_succ, ih, absorbStreamBlock_v, streamBlock_eq_blockOfBytes, absorbBlocks]; rfl

/-- A hash pass leaves the chained state of the stream's byte string in `V` (R162, R187). -/
theorem hashPass_v (s : State) (S : ByteStream) : (s.hashPass S).v = chainState (streamBytes S) := by
  rw [hashPass, absorbStream_v, chainState, streamBytes_length]

/-! `FEEDFWD` (R160). -/

theorem word8_xor8 (x y : Words8) (i : Fin 8) : word8 (xor8 x y) i = word8 x i ^^^ word8 y i := by
  fin_cases i <;> rfl

theorem xor8_zero (x : Words8) : xor8 x zeroWords8 = x := by
  simp [xor8, zeroWords8]

/-- `FEEDFWD` on an unlocked block as one update of the state. -/
theorem exec_feedfwd {s : State} (herr : s.err = false) :
    exec .feedfwd s = .next { s with v := xor8 s.v s.r, done := false } :=
  exec_ok (i := .feedfwd) nofun herr rfl

/-- Settles O29: `R` is not among what `FEEDFWD` writes, so the second fold cancels the first. -/
theorem feedfwdFoldsOnce : Obligations.FeedfwdFoldsOnce := by
  refine ⟨by decide, fun s herr => ⟨exec_feedfwd herr, word8_xor8 s.v s.r, ?_, fun hr => ?_⟩⟩
  · have hagain : exec .feedfwd { s with v := xor8 s.v s.r, done := false } =
        .next { s with v := xor8 (xor8 s.v s.r) s.r, done := false } := exec_feedfwd herr
    rw [exec_feedfwd herr, andThen_next, hagain, xor8_self_right]
  · have hr : s.r = zeroWords8 := hr
    rw [exec_feedfwd herr, hr, xor8_zero]

/-! `DIGEST`: which fault it raises, and its effect as one update of the state (R164, R167, R168). -/

section
variable {s : State}

theorem digestFault_len (h : 2 ^ 61 ≤ s.msgLen.toNat) : s.digestFault = some .len := if_pos h

theorem digestFault_range (hlen : s.msgLen.toNat < 2 ^ 61) (h : s.msgBeyondTop) : s.digestFault = some .range := by
  rw [digestFault, if_neg (by omega), if_pos h]

theorem digestFault_eq_none_iff : s.digestFault = none ↔ s.msgLen.toNat < 2 ^ 61 ∧ ¬ s.msgBeyondTop := by
  unfold digestFault
  split_ifs with hlen htop
  · exact iff_of_false nofun fun h => absurd hlen (by omega)
  · exact iff_of_false nofun fun h => h.2 htop
  · exact iff_of_true rfl ⟨by omega, htop⟩

/-- Where `DIGEST` raises no fault, it is FINISH on the state with the chained state of the message in `V`. -/
theorem exec_digest (herr : s.err = false) (h : s.digestFault = none) :
    exec .digest s = .next ({ s with v := chainState (messageOf s) } : State).finish := by
  rw [exec_ok (i := .digest) nofun herr h, effectOf, digestEffect_eq, hashPass_v, streamBytes_msgStream]

end

/-- Settles O31: the fault conditions in their order, and where none holds the effect of `exec_digest`. -/
theorem digestComputesSm3 : Obligations.DigestComputesSm3 := by
  refine ⟨by decide, fun s herr => ⟨fun hlen => ?_, fun hlen htop => ?_, fun hlen htop => ⟨?_, rfl⟩⟩⟩
  · exact exec_fault (i := .digest) nofun herr (digestFault_len hlen)
  · exact exec_fault (i := .digest) nofun herr (digestFault_range hlen htop)
  · exact exec_digest herr (digestFault_eq_none_iff.2 ⟨hlen, htop.not_gt⟩)

/-- Settles O34: the fault and the message are functions of the descriptors, the memory and `AW`, and FINISH fixes the
counters and flags. -/
theorem digestIgnoresScratch : Obligations.DigestIgnoresScratch := by
  intro s s' hcfg hmem hbase hlen herr herr'
  have hmsg : messageOf s = messageOf s' := by rw [messageOf, messageOf, hmem, hbase, hlen]
  have hfault : s'.digestFault = s.digestFault := by
    simp only [digestFault, msgBeyondTop, hcfg, hbase, hlen]
  cases hf : s.digestFault with
  | some c =>
    exact ⟨_, _, exec_fault (i := .digest) nofun herr hf, exec_fault (i := .digest) nofun herr' (hfault.trans hf), rfl,
      nofun⟩
  | none =>
    exact ⟨_, _, exec_digest herr hf, exec_digest herr' (hfault.trans hf), herr.trans herr'.symm,
      fun _ => ⟨congrArg chainState hmsg, rfl, rfl, rfl, rfl⟩⟩

/-! The component commands, a block at a time (R169). -/

/-- A block in the buffer, expanded, and compressed into `V`. -/
def withBlock (t : State) (blk : Vector Byte 64) : State :=
  { t with
    v := absorb t.v blk
    r := rounds64 t.v (expandBlock blk).1 (expandBlock blk).2
    w := (expandBlock blk).1
    wp := (expandBlock blk).2
    b := blk
    j := 64
    done := false }

/-- `PADBLK`, `EXPAND`, `COMPRESS` as one update of the state. -/
theorem execAll_blockCommands {t : State} (herr : t.err = false) (hf : t.padblkFault = none) :
    execAll blockCommands t = .next
      { withBlock t (blockOfBytes (padblock (messageOf t) t.blkidx.toNat)) with
        blkidx := t.blkidx + 1
        fin := decide (t.blkidx.toNat + 1 = nblocks t.msgLen.toNat) } := by
  have hpadblk : exec .padblk t = .next (padblkEffect t) := exec_ok (i := .padblk) nofun herr hf
  have hexpand : exec .expand (padblkEffect t) = .next (padblkEffect t).expandBuffer.clearDone :=
    exec_ok (i := .expand) nofun (by rwa [padblkEffect_err]) rfl
  have hcompress : exec .compress (padblkEffect t).expandBuffer.clearDone =
      .next (padblkEffect t).expandBuffer.clearDone.compressBuffer.clearDone := exec_compress (by simpa using herr)
  rw [blockCommands, execAll_cons_next _ hpadblk, execAll_cons_next _ hexpand, execAll_cons_next _ hcompress, execAll,
    compressBuffer_clearDone_eq, padblkEffect_eq]
  rfl

/-- The state after `INIT` and the commands of `m` blocks. -/
def afterBlocks (s : State) : Nat → State
  | 0 => initEffect s
  | m + 1 =>
    { withBlock { s with v := absorbBlocks (messageOf s) m 0 IV } (blockOfBytes (padblock (messageOf s) m)) with
      blkidx := BitVec.ofNat 56 (m + 1)
      fin := decide (m + 1 = nblocks s.msgLen.toNat) }

theorem afterBlocks_v (s : State) (m : Nat) : (afterBlocks s m).v = absorbBlocks (messageOf s) m 0 IV := by
  cases m with
  | zero => rfl
  | succ m => rw [absorbBlocks_last, Nat.zero_add]; rfl

theorem afterBlocks_blkidx (s : State) (m : Nat) : (afterBlocks s m).blkidx = BitVec.ofNat 56 m := by
  cases m <;> rfl

/-- What the component commands keep: the message, `AW` and the lock. -/
theorem afterBlocks_keeps (s : State) (m : Nat) :
    (afterBlocks s m).cfg = s.cfg ∧ (afterBlocks s m).err = s.err ∧ (afterBlocks s m).msgBase = s.msgBase ∧
      (afterBlocks s m).msgLen = s.msgLen ∧ (afterBlocks s m).mem = s.mem := by
  cases m <;> exact ⟨rfl, rfl, rfl, rfl, rfl⟩

theorem execAll_append {is is' : List Instr} {s t : State} (h : execAll is s = .next t) :
    execAll (is ++ is') s = execAll is' t := by
  induction is generalizing s with
  | nil => cases h; rfl
  | cons i is ih =>
    obtain ⟨u, hu⟩ := exec_next i s
    rw [execAll_cons_next _ hu] at h
    rw [List.cons_append, execAll_cons_next _ hu, ih h]

section
variable {s : State} {m : Nat}

/-- One block more, as long as the padded message has one. -/
theorem execAll_blockCommands_afterBlocks (herr : s.err = false) (hf : s.digestFault = none)
    (hm : m < nblocks s.msgLen.toNat) :
    execAll blockCommands (afterBlocks s m) = .next (afterBlocks s (m + 1)) := by
  obtain ⟨hlen, htop⟩ := digestFault_eq_none_iff.1 hf
  obtain ⟨hcfg, herr', hbase, hmsgLen, hmem⟩ := afterBlocks_keeps s m
  have hidx : (afterBlocks s m).blkidx.toNat = m := by
    have hle := nblocks_le hlen
    rw [afterBlocks_blkidx, BitVec.toNat_ofNat, Nat.mod_eq_of_lt (by omega)]
  have hmsg : messageOf (afterBlocks s m) = messageOf s := by rw [messageOf, messageOf, hbase, hmsgLen, hmem]
  have hnone : (afterBlocks s m).padblkFault = none :=
    padblkFault_none (by rwa [hmsgLen]) (by rwa [msgBeyondTop, hcfg, hbase, hmsgLen]) (by rwa [hidx, hmsgLen])
  have hnext : BitVec.ofNat 56 m + 1 = BitVec.ofNat 56 (m + 1) := (BitVec.ofNat_add m 1).symm
  rw [execAll_blockCommands (herr'.trans herr) hnone, hidx, hmsg, hmsgLen, withBlock, afterBlocks_v, afterBlocks_blkidx,
    hnext]
  cases m <;> rfl

/-- By induction on the number of blocks. -/
theorem execAll_digestByBlocks (herr : s.err = false) (hf : s.digestFault = none) (hm : m ≤ nblocks s.msgLen.toNat) :
    execAll (digestByBlocks m) s = .next (afterBlocks s m) := by
  induction m with
  | zero => exact execAll_cons_next [] (exec_ok (i := .init) nofun herr rfl)
  | succ m ih =>
    have hsplit : digestByBlocks (m + 1) = digestByBlocks m ++ blockCommands := by
      simp [digestByBlocks, List.replicate_succ', List.flatten_append]
    rw [hsplit, execAll_append (ih (by omega)), execAll_blockCommands_afterBlocks herr hf hm]

end

/-- Settles O33: `afterBlocks` at the last block against `exec_digest`. -/
theorem componentSequenceMatchesDigest : Obligations.ComponentSequenceMatchesDigest := by
  intro s herr hf
  have hle := nblocks_le (digestFault_eq_none_iff.1 hf).1
  refine ⟨_, _, execAll_digestByBlocks herr hf le_rfl, exec_digest herr hf, ?_, ?_⟩
  · rw [afterBlocks_v, finish_v, chainState, messageOf_length]
  · obtain ⟨k, hk⟩ : ∃ k, nblocks s.msgLen.toNat = k + 1 := ⟨_, rfl⟩
    rw [hk] at hle ⊢
    refine ⟨decide_eq_true hk.symm, ?_, rfl, rfl, rfl, rfl, rfl, rfl⟩
    rw [afterBlocks_blkidx, BitVec.toNat_ofNat, Nat.mod_eq_of_lt (by omega)]

/-! The files and streams of `HMAC` as byte strings (R181 to R185). -/

/-- A file filled from a string shorter than it is the string, zero-extended. -/
theorem toList_ofFn_getD {n : Nat} {S : Bytes} (h : S.length ≤ n) :
    (Vector.ofFn fun p : Fin n => S.getD p.val 0).toList = S ++ List.replicate (n - S.length) 0x00 := by
  refine List.ext_getElem (by simp; omega) fun p hp _ => ?_
  rw [Vector.getElem_toList, Vector.getElem_ofFn, List.getElem_append]
  split
  · exact List.getD_eq_getElem _ _ ‹_›
  · rw [List.getElem_replicate]
    exact List.getD_eq_default _ _ (Nat.not_lt.1 ‹_›)

theorem toList_serByte_32 (x : Words8) : (Vector.ofFn fun p : Fin 32 => serByte x p.val).toList = ser x := by
  refine (toList_ofFn_getD (ser_length x).le).trans ?_
  rw [ser_length, Nat.sub_self, List.replicate_zero, List.append_nil]

theorem toList_serByte_64 (x : Words8) :
    (Vector.ofFn fun p : Fin 64 => serByte x p.val).toList = zeroExtend64 (ser x) :=
  toList_ofFn_getD (by rw [ser_length]; decide)

theorem range_map_getD {n : Nat} (x : Vector Byte n) : ((List.range n).map fun p => x.getD p 0) = x.toList := by
  refine List.ext_getElem (by simp) fun p hp _ => ?_
  have hp : p < n := by simpa using hp
  rw [List.getElem_map, List.getElem_range, Vector.getElem_toList, vector_getD x 0 hp]

/-- The streams of `HMAC` have this form: the masked key block, then `n` more bytes (R183, R185). -/
theorem range_map_after_key (k : Vector Byte 64) (mask : Byte) (n : Nat) (f : Nat → Byte) :
    ((List.range (64 + n)).map fun p => if p < 64 then k.getD p 0 ^^^ mask else f (p - 64)) =
      xorBytes mask k.toList ++ (List.range n).map f := by
  rw [List.range_add, List.map_append, List.map_map, xorBytes, ← range_map_getD k, List.map_map]
  refine congrArg₂ (· ++ ·) (List.map_congr_left fun p hp => if_pos (List.mem_range.1 hp))
    (List.map_congr_left fun p _ => ?_)
  rw [Function.comp_apply, if_neg (by omega), Nat.add_sub_cancel_left]

/-- The inner stream is the key block xor `ipad`, then the message (R183). -/
theorem streamBytes_innerStream (s : State) :
    streamBytes s.innerStream = xorBytes ipadByte s.k.toList ++ messageOf s :=
  range_map_after_key s.k ipadByte s.msgLen.toNat fun p => memByte s.mem (s.msgBase.toNat + p)

/-- The outer stream is the key block xor `opad`, then the inner digest (R185). -/
theorem streamBytes_outerStream (s : State) :
    streamBytes s.outerStream = xorBytes opadByte s.k.toList ++ s.i.toList := by
  rw [← range_map_getD s.i]
  exact range_map_after_key s.k opadByte 32 fun p => s.i.getD p 0

theorem keyOf_length (s : State) : (keyOf s).length = s.keyLen.toNat := streamBytes_length s.keyStream

/-- The key load puts the normalised key into `K` (R181). -/
theorem loadKey_k_toList (s : State) : (loadKey s).k.toList = normkey (keyOf s) := by
  unfold loadKey normkey
  rw [keyOf_length]
  split_ifs with hlong
  · rw [toList_serByte_64, hashPass_v, streamBytes_keyStream, sm3]
  · have hcopy : (fun p : Fin 64 => if p.val < s.keyLen.toNat then s.keyStream.byte p.val else 0x00) =
        fun p : Fin 64 => (keyOf s).getD p.val 0 := by
      funext p
      split_ifs with hp
      · exact (streamBytes_getD s.keyStream hp).symm
      · rw [List.getD_eq_default _ _ (by rw [keyOf_length]; omega)]
    simp only [hcopy]
    exact toList_ofFn_getD (by rw [keyOf_length]; omega)

/-- The inner pass puts the inner digest into `I` (R183, R184). -/
theorem innerPass_i_toList (s : State) :
    (innerPass s).i.toList = sm3 (xorBytes ipadByte s.k.toList ++ messageOf s) := by
  rw [sm3, ← streamBytes_innerStream, ← hashPass_v s]
  exact toList_serByte_32 _

theorem innerPass_k (s : State) : (innerPass s).k = s.k := (innerPass_same s).k

theorem messageOf_loadKey (s : State) : messageOf (loadKey s) = messageOf s := by
  rw [← streamBytes_msgStream, loadKey_msgStream, streamBytes_msgStream]

/-- The three passes of `HMAC` leave the nested digest (R186). -/
theorem ser_hmac_passes (s : State) :
    ser (outerPass (innerPass (loadKey s))).v = hmac (messageOf s) (keyOf s) := by
  rw [outerPass, hashPass_v, streamBytes_outerStream, innerPass_i_toList, innerPass_k, loadKey_k_toList,
    messageOf_loadKey]
  rfl

/-! `HMAC`: which fault it raises, and its effect as one update of the state (R187). -/

section
variable {s : State}

theorem hmacFault_len (h : (64 < s.keyLen.toNat ∧ 2 ^ 61 ≤ s.keyLen.toNat) ∨ 2 ^ 61 ≤ s.msgLen.toNat + 64) :
    s.hmacFault = some .len := if_pos h

theorem hmacFault_range (hkey : s.keyLen.toNat < 2 ^ 61) (hmsg : s.msgLen.toNat + 64 < 2 ^ 61)
    (h : s.keyBeyondTop ∨ s.msgBeyondTop) : s.hmacFault = some .range := by
  rw [hmacFault, if_neg (by omega), if_pos h]

theorem hmacFault_none (hkey : s.keyLen.toNat < 2 ^ 61) (hmsg : s.msgLen.toNat + 64 < 2 ^ 61)
    (hkeyTop : ¬ s.keyBeyondTop) (hmsgTop : ¬ s.msgBeyondTop) : s.hmacFault = none := by
  rw [hmacFault, if_neg (by omega), if_neg (not_or.2 ⟨hkeyTop, hmsgTop⟩)]

end

/-- Settles O32: the fault conditions in their order, and where none holds FINISH after the three passes. -/
theorem hmacComputesHmac : Obligations.HmacComputesHmac := by
  refine ⟨by decide, fun s herr => ⟨fun hlen => ?_, fun hkey hmsg htop => ?_, fun hkey hmsg hkeyTop hmsgTop => ?_⟩⟩
  · exact exec_fault (i := .hmac) nofun herr (hmacFault_len hlen)
  · exact exec_fault (i := .hmac) nofun herr (hmacFault_range hkey hmsg htop)
  · refine ⟨_, ser_hmac_passes s, ?_⟩
    rw [exec_ok (i := .hmac) nofun herr (hmacFault_none hkey hmsg hkeyTop.not_gt hmsgTop.not_gt), effectOf,
      hmacEffect_eq]
    rfl

/-! The digest registers (R36, R163). -/

theorem regAt_digest : ∀ i : Fin 8, regAt (BitVec.ofNat 6 (16 + i.val)) = .digest i := by decide

theorem regRead_digest (s : State) (i : Fin 8) : s.regRead (BitVec.ofNat 6 (16 + i.val)) = word8 s.v i := by
  rw [regRead, regAt_digest]

theorem ser_getD (x : Words8) (i : Fin 8) {t : Nat} (ht : t < 4) :
    (ser x).getD (4 * i.val + t) 0 = (word8 x i).extractLsb' (24 - 8 * t) 8 := by
  fin_cases i <;> interval_cases t <;> rfl

/-- Settles O54: the eight registers read the words of `V`, and `ser` lists the bytes of each. -/
theorem digestRegistersSerialise : Obligations.DigestRegistersSerialise := by
  refine fun s => ⟨?_, ser_length s.v, fun i t ht => ser_getD s.v i ht⟩
  simp only [regRead_digest, ser_eq_flatMap]

end Sys2Proof.Machine
end

section
/-! The family of the HMAC construction on byte strings (spec/45_hmac.md): the normalised key, the first block of a
stream that begins with a padded key, and the two blocks of the outer stream. -/

namespace Sys2Proof.Machine

/-! The normalised key (R181, R188). -/

theorem sm3_length (S : Bytes) : (sm3 S).length = 32 := ser_length _

theorem zeroExtend64_length {S : Bytes} (h : S.length ≤ 64) : (zeroExtend64 S).length = 64 := by
  rw [zeroExtend64, List.length_append, List.length_replicate, Nat.add_sub_cancel' h]

/-- An appended zero is one of the zeros the extension would have added. -/
theorem zeroExtend64_append_zero {S : Bytes} (h : S.length < 64) : zeroExtend64 (S ++ [0x00]) = zeroExtend64 S := by
  have hcount : 64 - S.length = (64 - (S.length + 1)) + 1 := by omega
  rw [zeroExtend64, zeroExtend64, List.length_append, List.length_singleton, List.append_assoc, List.singleton_append,
    ← List.replicate_succ, hcount]

theorem zeroExtend64_sm3 (S : Bytes) : zeroExtend64 (sm3 S) = sm3 S ++ List.replicate 32 0x00 := by
  rw [zeroExtend64, sm3_length]

theorem normkey_of_long {key : Bytes} (h : 64 < key.length) : normkey key = zeroExtend64 (sm3 key) := if_pos h

theorem normkey_of_short {key : Bytes} (h : key.length ≤ 64) : normkey key = zeroExtend64 key := if_neg h.not_gt

theorem normkey_length (key : Bytes) : (normkey key).length = 64 := by
  rcases Nat.lt_or_ge 64 key.length with hlong | hshort
  · rw [normkey_of_long hlong]
    exact zeroExtend64_length (by rw [sm3_length]; decide)
  · rw [normkey_of_short hshort]
    exact zeroExtend64_length hshort

/-- A digest is short, so that normalising it hashes nothing again. -/
theorem normkey_sm3 {key : Bytes} (h : 64 < key.length) : normkey (sm3 key) = normkey key := by
  rw [normkey_of_long h]
  exact normkey_of_short (by rw [sm3_length]; decide)

theorem normkey_append_zero {key : Bytes} (h : key.length < 64) : normkey (key ++ [0x00]) = normkey key := by
  have hlen : (key ++ [0x00]).length ≤ 64 := by rw [List.length_append, List.length_singleton]; omega
  rw [normkey_of_short hlen, normkey_of_short h.le, zeroExtend64_append_zero h]

/-- `hmac` uses the key through `normkey` alone. -/
theorem hmac_congr_normkey (msg : Bytes) {key key' : Bytes} (h : normkey key = normkey key') :
    hmac msg key = hmac msg key' := by
  rw [hmac, hmac, h]

/-- Settles O35: two keys with one normalised key have one HMAC, and an HMAC is a digest. -/
theorem hmacKeyNormalisation : Obligations.HmacKeyNormalisation :=
  ⟨fun msg _ hlong => (hmac_congr_normkey msg (normkey_sm3 hlong)).symm,
    fun msg _ hshort => hmac_congr_normkey msg (normkey_append_zero hshort),
    fun _ _ => sm3_length _, normkey_length⟩

/-! The blocks of a stream that begins with 64 bytes of padded key (R183, R185). -/

section
variable {k : Bytes} (hk : k.length = 64)
include hk

theorem padblock_zero_of_block_append (S : Bytes) : padblock (k ++ S) 0 = k := by
  rw [padblock, pad, List.append_assoc, List.append_assoc, List.append_assoc]
  exact List.take_left' hk

theorem nblocks_block_append_digest {d : Bytes} (hd : d.length = 32) : nblocks (k ++ d).length = 2 := by
  rw [List.length_append, hk, hd]
  rfl

/-- A digest after one block: its 96 bytes leave 23 zero bytes and the length field 768. -/
theorem pad_block_append_digest {d : Bytes} (hd : d.length = 32) :
    pad (k ++ d) = k ++ (d ++ [0x80] ++ List.replicate 23 0x00 ++ [0, 0, 0, 0, 0, 0, 3, 0]) := by
  have hzero : zeroBytes (64 + 32) = 23 := by decide
  have hfield : bytes64 (8 * (64 + 32)) = [0, 0, 0, 0, 0, 0, 3, 0] := by decide
  rw [pad, List.length_append, hk, hd, hzero, hfield]
  simp only [List.append_assoc]

theorem padblock_one_of_block_append_digest {d : Bytes} (hd : d.length = 32) :
    padblock (k ++ d) 1 = d ++ [0x80] ++ List.replicate 23 0x00 ++ [0, 0, 0, 0, 0, 0, 3, 0] := by
  rw [padblock, pad_block_append_digest hk hd, List.drop_left' hk]
  refine List.take_of_length_le (le_of_eq ?_)
  simp [hd]

end

theorem xorBytes_normkey_length (mask : Byte) (key : Bytes) : (xorBytes mask (normkey key)).length = 64 := by
  rw [xorBytes, List.length_map, normkey_length]

/-- Settles O21: both padded keys are one block, and the outer stream is that block and a digest. -/
theorem hmacConstruction : Obligations.HmacConstruction := by
  intro msg key
  have hinner := xorBytes_normkey_length ipadByte key
  have houter := xorBytes_normkey_length opadByte key
  have hdigest := sm3_length (xorBytes ipadByte (normkey key) ++ msg)
  refine ⟨?_, hinner, houter, padblock_zero_of_block_append hinner msg, ?_,
    nblocks_block_append_digest houter hdigest, padblock_zero_of_block_append houter _,
    padblock_one_of_block_append_digest houter hdigest, rfl⟩
  · rw [normkey, zeroExtend64_sm3, zeroExtend64]
  · rw [pad_length, pad_drop_lengthField, List.length_append]
    exact congrArg (fun n => bytes64 (8 * (n + msg.length))) hinner

end Sys2Proof.Machine
end

section
/-! The family of the control commands and the register space (spec/46_control.md): `NOP`, `INIT`, `CLEAR`, the step as
the dispatch of the decoded command, the register transactions, the reset event, how a pending command ends, and what
does not depend on the contents of the memory. -/

namespace Sys2Proof.Machine

open State

/-! The end of a pending command (R206, R208, R261). -/

/-- A transaction that is not held ends the pending command if it is the reset event; any other leaves the command pending,
and nothing goes back to the script but a `WAIT`. -/
theorem perform_pending {s t : State} {x : Transaction} (hb : s.busy = true) (hx : heldWhileBusy x = false)
    (h : s.perform x = .next t) :
    t.busy = false ∨ (t.busy = true ∧ t.slack = s.slack ∧ t.script ⊆ x :: s.script) := by
  cases x with
  | write idx data => cases hx
  | mem addr byte => cases hx
  | read idx => cases h; exact .inr ⟨hb, rfl, List.subset_cons_self ..⟩
  | wait =>
    rw [perform, if_pos hb] at h
    cases h
    exact .inr ⟨hb, rfl, List.Subset.refl _⟩
  | store addr byte =>
    obtain ⟨-, rfl⟩ := memWrite_next h
    exact .inr ⟨hb, rfl, List.subset_cons_self ..⟩
  | reset => cases h; exact .inl rfl

/-- A move of the HOST that does not have to wait, while a command is pending. -/
theorem hostMove_pending {s t : State} (hb : s.busy = true) (hw : s.hostWaits = false) (h : s.hostMove = .next t) :
    t.busy = false ∨ (t.busy = true ∧ t.slack = s.slack ∧ t.script ⊆ s.script) := by
  cases hs : s.script with
  | nil => rw [hostWaits, hs] at hw; cases hw
  | cons x rest =>
    rw [hostMove_cons hs] at h
    exact perform_pending (s := { s with script := rest }) hb ((hostWaits_cons hs).symm.trans hw) h

/-- A step with a command pending ends it, or uses up one of the steps left to the HOST, or is a HOST memory write that
stops the machine. -/
theorem step_pending_cases {s : State} (hb : s.busy = true) :
    (∃ t, step s = .next t ∧ t.busy = false) ∨
    (∃ t, step s = .next t ∧ t.busy = true ∧ t.slack + 1 = s.slack ∧ t.script ⊆ s.script) ∨
    ((∃ addr byte, Transaction.store addr byte ∈ s.script) ∧
      (step s = .fault .noSuchAddress ∨ step s = .refused .stabilityDutyBroken)) := by
  cases ho : step s with
  | next t =>
    rcases step_cases s with ⟨-, -, hs⟩ | ⟨-, hw, hpos, hs⟩ | ⟨hidle, -⟩
    · obtain ⟨u, hu, hidle, -⟩ := complete_next s
      cases ho.symm.trans (hs.trans hu)
      exact .inl ⟨t, rfl, hidle⟩
    · rcases hostMove_pending (s := s.spend) hb hw (hs.symm.trans ho) with hidle | ⟨hbusy, hslack, hsub⟩
      · exact .inl ⟨t, rfl, hidle⟩
      · rw [spend_slack] at hslack
        exact .inr (.inl ⟨t, rfl, hbusy, by omega, hsub⟩)
    · cases hb.symm.trans hidle
  | fault f =>
    cases f
    obtain ⟨addr, byte, rest, ⟨-, hidle⟩ | hscript, -⟩ := step_fault ho
    · cases hb.symm.trans hidle
    · exact .inr (.inr ⟨⟨addr, byte, hscript ▸ List.mem_cons_self ..⟩, .inl rfl⟩)
  | refused r =>
    obtain ⟨rfl, -, addr, byte, rest, hscript, -⟩ := step_refused ho
    exact .inr (.inr ⟨⟨addr, byte, hscript ▸ List.mem_cons_self ..⟩, .inr rfl⟩)

/-- Settles O44: by induction on the steps left to the HOST, of which every step that does not end the command uses up
one. -/
theorem pendingCommandEnds : Obligations.PendingCommandEnds := by
  intro s hb
  induction hn : s.slack generalizing s with
  | zero =>
    obtain ⟨t, ht, hidle, -⟩ := complete_next s
    exact ⟨1, le_rfl, .inl ⟨t, run_one ((step_complete hb (.inr hn)).trans ht), hidle⟩⟩
  | succ n ih =>
    rcases step_pending_cases hb with ⟨t, ht, hidle⟩ | ⟨t, ht, hbusy, hslack, hsub⟩ | ⟨hstore, hstop⟩
    · exact ⟨1, by omega, .inl ⟨t, run_one ht, hidle⟩⟩
    · obtain ⟨k, hk, hend⟩ := ih t hbusy (by omega)
      refine ⟨k + 1, by omega, ?_⟩
      rw [run_next ht]
      exact hend.imp_right fun ⟨⟨addr, byte, hmem⟩, hstop⟩ => ⟨⟨addr, byte, hsub hmem⟩, hstop⟩
    · exact ⟨1, by omega, .inr ⟨hstore, hstop.imp run_one run_one⟩⟩

/-! The contents of the memory and the control flow (R211). -/

/-- Two states with the same flags, fault code and counters. -/
structure SameControl (s t : State) : Prop where
  err : t.err = s.err
  ecode : t.ecode = s.ecode
  done : t.done = s.done
  fin : t.fin = s.fin
  busy : t.busy = s.busy
  j : t.j = s.j
  blkidx : t.blkidx = s.blkidx

theorem sameControl_mem_update (s : State) (m : Memory) : SameControl s { s with mem := m } := by
  constructor <;> rfl

/-- FINISH writes `DONE`, `FIN` and the counters with constants (R168). -/
theorem finish_sameControl (s : State) (m : Memory) (v v' : Words8) :
    SameControl ({ s with v := v } : State).finish ({ s with mem := m, v := v' } : State).finish := by
  constructor <;> rfl

/-- The commands that read the memory write no flag and no counter from what they read; the other ones do not read it. -/
theorem effectOf_sameControl (i : Instr) (s : State) (m : Memory) :
    SameControl (effectOf i s) (effectOf i { s with mem := m }) := by
  cases i with
  | padblk => constructor <;> simp [effectOf]
  | digest => rw [effectOf, digestEffect_eq, digestEffect_eq]; exact finish_sameControl s m _ _
  | hmac => rw [effectOf, hmacEffect_eq, hmacEffect_eq]; exact finish_sameControl s m _ _
  | nop | init | clear | expand | ldreg | round n | feedfwd | compress =>
    rw [effectOf_mem_congr]
    · exact sameControl_mem_update _ m
    · nofun

/-- A command on another memory is discarded, faults or takes effect as on this one, with the same control state. -/
theorem exec_sameControl {i : Instr} {s t : State} (m : Memory) (h : exec i s = .next t) :
    ∃ t', exec i { s with mem := m } = .next t' ∧ SameControl t t' := by
  rcases exec_cases h with ⟨rfl, rfl⟩ | ⟨hc, herr, rfl⟩ | ⟨hc, herr, c, hf, rfl⟩ | ⟨hc, herr, hf, rfl⟩
  · exact ⟨_, rfl, sameControl_mem_update _ m⟩
  · exact ⟨_, exec_locked hc herr, sameControl_mem_update _ m⟩
  · refine ⟨_, exec_fault (s := { s with mem := m }) hc herr ((faultOf_mem s m i).trans hf), ?_⟩
    rw [raise_unlocked herr]
    exact sameControl_mem_update _ m
  · exact ⟨_, exec_ok (s := { s with mem := m }) hc herr ((faultOf_mem s m i).trans hf), effectOf_sameControl i s m⟩

/-- Which bytes a command reads is a matter of the descriptors and `BLKIDX` alone (R52). -/
theorem reads_mem (s : State) (m : Memory) (addr : Nat) (i : Instr) :
    ({ s with mem := m } : State).reads addr i = s.reads addr i := by
  cases i <;> rfl

/-- Settles O49: the frame of a command and its footprint are computed from the registers. -/
theorem controlFlowIgnoresData : Obligations.ControlFlowIgnoresData := by
  refine fun i s t m h => ⟨?_, fun addr => by rw [inFootprint, inFootprint, faultOf_mem, reads_mem]⟩
  obtain ⟨t', ht', hc⟩ := exec_sameControl m h
  exact ⟨t', ht', hc.err, hc.ecode, hc.done, hc.fin, hc.busy, hc.j, hc.blkidx⟩

/-! The register map (R204, R205). -/

theorem hiHalf_append_loHalf (d : BitVec 64) : hiHalf d ++ loHalf d = d :=
  (BitVec.extractLsb'_append_extractLsb'_eq_extractLsb' rfl).trans BitVec.extractLsb'_eq_self

/-- The indices the map leaves out. -/
theorem regAt_reserved : ∀ idx : BitVec 6, idx ∈ ([3, 14, 15] : List (BitVec 6)) ∨ 24 ≤ idx.toNat →
    regAt idx = .reserved := by decide

theorem loHalf_setWidth (x : BitVec 56) : loHalf (x.setWidth 64) = x.extractLsb' 0 32 :=
  BitVec.extractLsb'_setWidth_of_le (by decide)

/-- The high half of a 56-bit counter reads with zeros above its 24 bits (R28). -/
theorem hiHalf_setWidth (x : BitVec 56) : hiHalf (x.setWidth 64) = (x.extractLsb' 32 24).setWidth 32 := by
  have hx := x.isLt
  apply BitVec.eq_of_toNat_eq
  simp only [hiHalf, BitVec.extractLsb'_toNat, BitVec.toNat_setWidth, Nat.shiftRight_eq_div_pow]
  omega

theorem regRead_blkidx (s : State) : s.regRead 13 ++ s.regRead 12 = s.blkidx.setWidth 64 := by
  rw [← hiHalf_append_loHalf (s.blkidx.setWidth 64), hiHalf_setWidth, loHalf_setWidth]
  rfl

/-- Settles O51: index by index the map, and a read's one effect is its answer. -/
theorem registerReads : Obligations.RegisterReads := by
  refine ⟨fun s => ⟨rfl, rfl, rfl, hiHalf_append_loHalf _, hiHalf_append_loHalf _, hiHalf_append_loHalf _,
    hiHalf_append_loHalf _, regRead_blkidx s, regRead_digest s, fun idx h => ?_⟩, fun s t idx h => ?_, fun idx => ?_⟩
  · rw [regRead, regAt_reserved idx h]
  · cases h; rfl
  · rw [← Bool.not_eq_false, heldWhileBusy_read_iff, not_or]

/-- The indices other than `CMD` and the descriptor halves are read-only or reserved. -/
theorem regAt_not_written : ∀ idx : BitVec 6, idx ≠ 1 → idx.toNat < 4 ∨ 12 ≤ idx.toNat →
    regAt idx ∈ ([.id, .status, .blkidxLo, .blkidxHi, .reserved] : List Reg) ∨ ∃ i, regAt idx = .digest i := by
  decide

theorem regWrite_ignored (s : State) {idx : BitVec 6} (data : Word) (hcmd : idx ≠ 1)
    (h : idx.toNat < 4 ∨ 12 ≤ idx.toNat) : s.regWrite idx data = s := by
  have hreg := regAt_not_written idx hcmd h
  simp only [List.mem_cons, List.not_mem_nil, or_false] at hreg
  rcases hreg with (hreg | hreg | hreg | hreg | hreg) | ⟨i, hreg⟩ <;> rw [regWrite, hreg]

/-- Settles O52: index by index the map, whose halves of a descriptor are slices of it. -/
theorem registerWrites : Obligations.RegisterWrites :=
  ⟨fun s data => ⟨rfl, rfl, rfl, rfl, rfl, rfl, rfl, rfl, ⟨_, _, rfl⟩, fun _ => regWrite_ignored s data⟩,
    fun _ _ _ => ⟨rfl, rfl⟩⟩

/-! `NOP`, `INIT` and `CLEAR` (R201 to R203). -/

/-- Settles O22: the discard on a locked block and the empty effect on an unlocked one are the same. -/
theorem nopChangesNothing : Obligations.NopChangesNothing := by
  refine ⟨by decide, fun s => ?_⟩
  cases herr : s.err with
  | true => exact exec_locked nofun herr
  | false => exact exec_ok nofun herr rfl

/-- Settles O23: `INIT` has no fault condition, and its effect is `initEffect`. -/
theorem initStartsComputation : Obligations.InitStartsComputation :=
  ⟨by decide, fun _ herr => exec_ok (i := .init) nofun herr rfl, fun _ herr => exec_locked nofun herr⟩

/-- Settles O24: `CLEAR` does not look at `ERR`, and `clearBlock` is the table of R39 beside the descriptors. -/
theorem clearRestoresReset : Obligations.ClearRestoresReset := ⟨by decide, fun _ => rfl⟩

/-! The step: the decoded command, the accept step, and the reset event (R200, R207, R208, R210, R250). -/

/-- The step that completes a command is the command, then `BUSY <- 0`. -/
theorem step_eq_exec {s : State} {i : Instr} (hb : s.busy = true) (h : s.hostWaits = true ∨ s.slack = 0)
    (hd : decode s.cmdreg = .ok i) :
    step s = andThen (exec i s) (fun t => .next { t with busy := false }) := by
  obtain ⟨u, hu⟩ := exec_next i s
  rw [step_complete hb h, complete_of_decode hd hu, hu]
  rfl

/-- The word placed for a command is its encoding, whole. -/
theorem withFetchWord_cmdreg (s : State) (w : Word) : (s.withFetchWord 32 w.toNat).cmdreg = w := by
  show BitVec.ofNat 32 (w.toNat % 2 ^ 32) = w
  rw [Nat.mod_eq_of_lt w.isLt, BitVec.ofNat_toNat, BitVec.setWidth_eq]

/-- Settles O41: the cases of the step, and the decoder on an encoded command. -/
theorem stepRunsDecodedCommand : Obligations.StepRunsDecodedCommand := by
  refine ⟨fun s i => step_eq_exec, fun s i hwf => ?_, fun s => step_host, fun s => step_idle⟩
  refine step_eq_exec rfl (.inr rfl) ?_
  rw [withFetchWord_cmdreg]
  exact decodeOfEncodeIsTheCommand i hwf

/-- Settles O42: the write to `CMD` is the next transaction of an idle block, and `accept` writes no other field. -/
theorem acceptLatchesCommand : Obligations.AcceptLatchesCommand :=
  fun _ _ _ hb hscript => ⟨_, _, step_perform_idle hb hscript⟩

/-- Settles O58: the reset event is not held, and what it leaves of the block is `resetWith`. -/
theorem resetEventRestoresBlock : Obligations.ResetEventRestoresBlock :=
  fun _ _ hscript => ⟨hostMove_cons hscript, step_idle, fun hb =>
    ⟨hostWaits_cons hscript, fun h0 => step_complete hb (.inr h0), step_perform_pending hb hscript rfl⟩⟩

end Sys2Proof.Machine
end

section
/-! The family of the faults and the locked state (spec/60_exceptions.md): which command raises which fault, what a fault
changes, what a locked block discards, and how it is left. -/

namespace Sys2Proof.Machine

open State

/-! The fault conditions over all commands, and the priority among them (R222 to R224, R227). -/

/-- `E_LEN`: the bit length of one of the command's streams does not fit 64 bits (R222). -/
def LenCond (i : Instr) (s : State) : Prop :=
  ((i = .padblk ∨ i = .digest) ∧ 2 ^ 61 ≤ s.msgLen.toNat) ∨
  (i = .hmac ∧ (2 ^ 61 ≤ s.msgLen.toNat + 64 ∨ (64 < s.keyLen.toNat ∧ 2 ^ 61 ≤ s.keyLen.toNat)))

/-- `E_RANGE`: one of the byte ranges the command reads passes the top of the memory (R223). -/
def RangeCond (i : Instr) (s : State) : Prop :=
  ((i = .padblk ∨ i = .digest ∨ i = .hmac) ∧ s.msgBeyondTop) ∨ (i = .hmac ∧ s.keyBeyondTop)

/-- `E_SEQ`: the command asks for a block or a round that does not exist (R224). -/
def SeqCond (i : Instr) (s : State) : Prop :=
  (i = .padblk ∧ nblocks s.msgLen.toNat ≤ s.blkidx.toNat) ∨ (∃ n, i = .round n ∧ 64 < s.j.toNat + n.toNat)

section
variable {i : Instr} {s : State}

theorem msgLen_lt_of_not_lenCond (hi : i = .padblk ∨ i = .digest) (h : ¬ LenCond i s) : s.msgLen.toNat < 2 ^ 61 :=
  not_le.1 fun hlen => h (.inl ⟨hi, hlen⟩)

theorem lengths_lt_of_not_lenCond_hmac (h : ¬ LenCond .hmac s) :
    s.keyLen.toNat < 2 ^ 61 ∧ s.msgLen.toNat + 64 < 2 ^ 61 := by
  have hlen : ¬ (2 ^ 61 ≤ s.msgLen.toNat + 64 ∨ (64 < s.keyLen.toNat ∧ 2 ^ 61 ≤ s.keyLen.toNat)) :=
    fun hlen => h (.inr ⟨rfl, hlen⟩)
  omega

theorem faultOf_len (h : LenCond i s) : s.faultOf i = some .len := by
  rcases h with ⟨rfl | rfl, hlen⟩ | ⟨rfl, hlen⟩
  · exact padblkFault_len hlen
  · exact digestFault_len hlen
  · exact hmacFault_len hlen.symm

theorem faultOf_range (hlen : ¬ LenCond i s) (h : RangeCond i s) : s.faultOf i = some .range := by
  rcases h with ⟨rfl | rfl | rfl, htop⟩ | ⟨rfl, htop⟩
  · exact padblkFault_range (msgLen_lt_of_not_lenCond (.inl rfl) hlen) htop
  · exact digestFault_range (msgLen_lt_of_not_lenCond (.inr rfl) hlen) htop
  · obtain ⟨hkey, hmsg⟩ := lengths_lt_of_not_lenCond_hmac hlen
    exact hmacFault_range hkey hmsg (.inr htop)
  · obtain ⟨hkey, hmsg⟩ := lengths_lt_of_not_lenCond_hmac hlen
    exact hmacFault_range hkey hmsg (.inl htop)

theorem faultOf_seq (hlen : ¬ LenCond i s) (hrange : ¬ RangeCond i s) (h : SeqCond i s) :
    s.faultOf i = some .seq := by
  rcases h with ⟨rfl, hblk⟩ | ⟨n, rfl, hj⟩
  · exact padblkFault_seq (msgLen_lt_of_not_lenCond (.inl rfl) hlen) (fun htop => hrange (.inl ⟨.inl rfl, htop⟩)) hblk
  · exact roundFault_seq hj

theorem faultOf_none (hlen : ¬ LenCond i s) (hrange : ¬ RangeCond i s) (hseq : ¬ SeqCond i s) :
    s.faultOf i = none := by
  cases i with
  | padblk =>
    exact padblkFault_none (msgLen_lt_of_not_lenCond (.inl rfl) hlen) (fun htop => hrange (.inl ⟨.inl rfl, htop⟩))
      (not_le.1 fun hblk => hseq (.inl ⟨rfl, hblk⟩))
  | round n => exact roundFault_none (not_lt.1 fun hj => hseq (.inr ⟨n, rfl, hj⟩))
  | digest =>
    exact digestFault_eq_none_iff.2 ⟨msgLen_lt_of_not_lenCond (.inr rfl) hlen,
      fun htop => hrange (.inl ⟨.inr (.inl rfl), htop⟩)⟩
  | hmac =>
    obtain ⟨hkey, hmsg⟩ := lengths_lt_of_not_lenCond_hmac hlen
    exact hmacFault_none hkey hmsg (fun htop => hrange (.inr ⟨rfl, htop⟩))
      (fun htop => hrange (.inl ⟨.inr (.inr rfl), htop⟩))
  | nop | init | clear | expand | ldreg | feedfwd | compress => rfl

end

section
variable {i : Instr} {s t : State}

/-- A command of an unlocked block with a fault condition enters that fault, and changes nothing else (R228). -/
theorem exec_eq_of_fault {c : FaultCode} (herr : s.err = false) (hf : s.faultOf i = some c) (h : exec i s = .next t) :
    t = { s with err := true, ecode := faultCode c, done := false } := by
  have hc : i ≠ .clear := by rintro rfl; cases hf
  cases (exec_fault hc herr hf).symm.trans h
  rfl

/-- A command of an unlocked block without a fault condition leaves it unlocked. -/
theorem exec_err_of_no_fault (herr : s.err = false) (hf : s.faultOf i = none) (h : exec i s = .next t) :
    t.err = false := by
  rcases exec_cases h with ⟨-, rfl⟩ | ⟨-, -, rfl⟩ | ⟨-, -, c, hf', -⟩ | ⟨hc, -, -, rfl⟩
  · rfl
  · exact herr
  · cases hf.symm.trans hf'
  · exact (effectOf_keeps hc s).err.trans herr

theorem exec_flags_of_fault {c : FaultCode} (herr : s.err = false) (hf : s.faultOf i = some c)
    (h : exec i s = .next t) : t.err = true ∧ t.ecode = faultCode c := by
  cases exec_eq_of_fault herr hf h
  exact ⟨rfl, rfl⟩

end

/-- Settles O36: `faultOf` takes the first condition that holds, and the command enters just that fault. -/
theorem faultConditions : Obligations.FaultConditions := by
  intro i s herr
  obtain ⟨t, ht⟩ := exec_next i s
  exact ⟨t, ht, fun hlen => exec_flags_of_fault herr (faultOf_len hlen) ht,
    fun hlen hrange => exec_flags_of_fault herr (faultOf_range hlen hrange) ht,
    fun hlen hrange hseq => exec_flags_of_fault herr (faultOf_seq hlen hrange hseq) ht,
    fun hlen hrange hseq => exec_err_of_no_fault herr (faultOf_none hlen hrange hseq) ht⟩

/-! The frame of a fault through the complete step (R228, R229). -/

/-- The command that faults has an empty footprint (R229). -/
theorem inFootprint_of_fault {s : State} {i : Instr} {c : FaultCode} (hf : s.faultOf i = some c) (addr : Nat) :
    s.inFootprint i addr = false := by
  simp [inFootprint, hf]

/-- Where the complete step locks the block, it entered a fault, and the pending word read no memory. -/
theorem complete_fault {s t : State} (herr : s.err = false) (h : complete s = .next t) (ht : t.err = true) :
    (∃ c, t = { s with err := true, ecode := faultCode c, done := false, busy := false }) ∧
      ∀ addr, s.inPendingFootprint addr = false := by
  rcases complete_cases h with ⟨⟨e, hd⟩, -⟩ | ⟨i, u, hd, he, rfl⟩
  · cases (complete_illegal_unlocked hd herr).symm.trans h
    exact ⟨⟨.ill, rfl⟩, fun addr => by rw [inPendingFootprint, hd]⟩
  · cases hf : s.faultOf i with
    | none => cases (exec_err_of_no_fault herr hf he).symm.trans ht
    | some c =>
      cases exec_eq_of_fault herr hf he
      exact ⟨⟨c, rfl⟩, fun addr => (inPendingFootprint_of_decode hd addr).trans (inFootprint_of_fault hf addr)⟩

/-- Settles O37: the frame is that of fault entry, and with an empty footprint no memory makes a difference. -/
theorem faultsArePrecise : Obligations.FaultsArePrecise := by
  intro s t herr h ht
  obtain ⟨⟨c, hframe⟩, hempty⟩ := complete_fault herr h ht
  obtain ⟨hne, hle⟩ := faultCode_bounds c
  refine ⟨⟨faultCode c, by bv_omega, hle, hframe⟩, fun m => complete_mem_congr (fun addr hin => ?_) h⟩
  cases (hempty addr).symm.trans hin

/-! The locked block (R230, R231). -/

/-- Everything a locked block does with the latched word: nothing but `BUSY <- 0`, unless it is `CLEAR` (R230). -/
theorem complete_locked {s : State} (herr : s.err = true) (hd : decode s.cmdreg ≠ .ok .clear) :
    complete s = .next { s with busy := false } := by
  cases hw : decode s.cmdreg with
  | error e => exact complete_illegal_locked hw herr
  | ok i =>
    have hc : i ≠ .clear := by rintro rfl; exact hd hw
    exact complete_of_decode hw (exec_locked hc herr)

/-- No register but `STATUS` shows `ERR` (R30, R32). -/
theorem regRead_err_update (s : State) (e : Bool) {idx : BitVec 6} (h : idx ≠ 2) :
    s.regRead idx = ({ s with err := e } : State).regRead idx := by
  have hreg : regAt idx ≠ .status := mt (regAt_eq_status_iff idx).1 h
  unfold regRead
  cases hr : regAt idx with
  | status => exact absurd hr hreg
  | _ => rfl

/-- A register write other than to `CMD` neither reads nor writes `ERR` (R204). -/
theorem regWrite_err_update (s : State) (e : Bool) {idx : BitVec 6} (data : Word) (h : idx ≠ 1) :
    ({ s.regWrite idx data with err := e } : State) = ({ s with err := e } : State).regWrite idx data := by
  have hreg : regAt idx ≠ .cmd := mt (regAt_eq_cmd_iff idx).1 h
  unfold regWrite
  cases hr : regAt idx with
  | cmd => exact absurd hr hreg
  | _ => rfl

/-- Settles O38: `CLEAR` is the one command outside the common frame, and of the register accesses only a read of `STATUS`
and the schedule drawn by a write to `CMD` look at `ERR`. -/
theorem lockedBlockDiscards : Obligations.LockedBlockDiscards := by
  refine ⟨fun s => complete_locked, fun s idx => regRead_err_update s false,
    fun s idx data => ⟨?_, regWrite_err_update s false data⟩⟩
  by_cases hcmd : idx = 1
  · subst hcmd
    exact ⟨_, rfl⟩
  · exact ⟨_, regWrite_err_update s false data hcmd⟩

/-- No transaction of the HOST but the reset event writes `ERR` or `ECODE`. -/
theorem perform_keeps_err_ecode {s t : State} {x : Transaction} (hx : x ≠ .reset) (h : s.perform x = .next t) :
    t.err = s.err ∧ t.ecode = s.ecode := by
  cases x with
  | write idx data => cases h; rw [regWrite_eq]; exact ⟨rfl, rfl⟩
  | read idx => cases h; exact ⟨rfl, rfl⟩
  | wait => cases h; exact ⟨rfl, rfl⟩
  | mem addr byte | store addr byte => obtain ⟨-, rfl⟩ := memWrite_next h; exact ⟨rfl, rfl⟩
  | reset => exact absurd rfl hx

/-- A move of the HOST keeps `ERR` and `ECODE`, or it is the reset event. -/
theorem hostMove_err_ecode {s t : State} (h : s.hostMove = .next t) :
    (t.err = s.err ∧ t.ecode = s.ecode) ∨ (s.script.head? = some .reset ∧ t.err = false ∧ t.ecode = 0) := by
  cases hs : s.script with
  | nil => rw [hostMove, hs] at h; cases h; exact .inl ⟨rfl, rfl⟩
  | cons x rest =>
    rw [hostMove_cons hs] at h
    by_cases hx : x = .reset
    · subst hx
      cases h
      exact .inr ⟨rfl, rfl, rfl⟩
    · exact .inl (perform_keeps_err_ecode (s := { s with script := rest }) hx h)

/-- Settles O39: the complete step of a locked block is `CLEAR` or a discard, and of the HOST's moves only the reset event
writes the two fields. -/
theorem onlyClearOrResetUnlocks : Obligations.OnlyClearOrResetUnlocks := by
  intro s t h herr
  rcases step_next_cases h with ⟨hb, hc⟩ | hmove
  · by_cases hd : decode s.cmdreg = .ok .clear
    · cases (complete_of_decode hd rfl).symm.trans hc
      exact .inr (.inl ⟨hb, hd, rfl, rfl⟩)
    · cases (complete_locked herr hd).symm.trans hc
      exact .inl ⟨herr, rfl⟩
  · have hhost : (t.err = s.err ∧ t.ecode = s.ecode) ∨ (s.script.head? = some .reset ∧ t.err = false ∧ t.ecode = 0) :=
      hmove.elim (hostMove_err_ecode (s := s.spend)) hostMove_err_ecode
    exact hhost.imp (fun ⟨he, hcode⟩ => ⟨he.trans herr, hcode⟩) .inr

end Sys2Proof.Machine
end
